-- ==== Sys2Proof/Word.lean ====
section
/-! DEFINITION. The bit-vector types of the block (00_scope.md R6, R7): bytes, CPU and PPU addresses,
transaction words. -/

namespace Sys2Proof

/-- A byte: every mapper and audio register byte, every bus transfer (R6, R80). -/
abbrev Byte := BitVec 8

/-- A CPU address (R6: "CPU addresses are 16 bits"). -/
abbrev Addr := BitVec 16

/-- A PPU address (R6: "PPU addresses are 14 bits"). -/
abbrev PpuAddr := BitVec 14

/-- A transaction word (30_encoding.md R100). -/
abbrev TxWord := BitVec 32

end Sys2Proof
end

