-- ==== Sys2Proof/Config.lean ====
section
/-! DEFINITION. What a cartridge or an implementation fixes (00_scope.md R2, R3, R6; 45_audio.md R300) and the
free values the spec leaves open. -/

namespace Sys2Proof

/-- The mirroring modes of 10_state.md R31, in the order of their codes 0 to 3. -/
inductive MirrorMode
  | vertical
  | horizontal
  | singleLow
  | singleHigh
  deriving DecidableEq, Repr

/-- `active` of 10_state.md R23. -/
inductive Active
  | none
  | bandai
  | mmc2
  | mmc4
  | sunsoft
  deriving DecidableEq, Repr

/-- AUDIO_OPTION of 00_scope.md R3. -/
inductive AudioOption
  | none
  | square
  | saw
  deriving DecidableEq, Repr

/-- What decides how a bus write is decoded: the active mapper and the audio module (30_encoding.md R109). -/
structure Selection where
  active : Active
  audio : AudioOption
  deriving DecidableEq, Repr

/-- Which output curve OUT_SQ or OUT_SAW is (45_audio.md R327, R334: OPEN, with a default).
`linear` is the default curve; `table k` is an implementation's own curve, of which only the constraints of R327
and R334 are known. -/
inductive OutCurve
  | linear
  | table (k : Nat)
  deriving DecidableEq, Repr

/-- SAVE_TAG(v) (00_scope.md R6): the 8-byte tag of each module. No transaction reads it (46_lifecycle.md R372). -/
structure SaveTags where
  bandai : Vector Byte 8
  mmc2 : Vector Byte 8
  mmc4 : Vector Byte 8
  sunsoft : Vector Byte 8
  square : Vector Byte 8
  saw : Vector Byte 8
  deriving DecidableEq, Repr

/-- The model arguments of 00_scope.md R6 and 45_audio.md R300, as plain data: a function of a small index is its
table of values. They are part of the configuration of 10_state.md R20 and no transaction changes them. -/
structure ModelArgs where
  /-- PSEUDO_CLOCKS_PER_SCANLINE, the D of 43_irq.md. -/
  pseudoClocks : Nat
  /-- CPS, the fixed-point cycles per sample. -/
  cps : Nat
  /-- CPS_SHIFT, the fixed-point scale. -/
  cpsShift : Nat
  /-- ENV_UNIT, CPU cycles per envelope clock: the unit of the step functions' defaults (`ModelArgs.envStep`,
  `ModelArgs.lenStep`, `ModelArgs.sweepStep`). -/
  envUnit : Nat
  /-- ENV_STEP(r), r = 0 to 15, where it is given and not R300's default. -/
  envStepGiven : Option (Vector Nat 16)
  /-- LEN_STEP, where it is given and not R300's default. -/
  lenStepGiven : Option Nat
  /-- SWEEP_STEP(p), p = 0 to 7, where it is given and not R300's default. -/
  sweepStepGiven : Option (Vector Nat 8)
  /-- HAS_SWEEP. -/
  hasSweep : Bool
  /-- PERIOD_FLOOR. -/
  periodFloor : Nat
  /-- CEILING[s], s = 0 to 7. -/
  ceiling : Vector Nat 8
  /-- LENGTH_TABLE[i], i = 0 to 31. -/
  lengthTable : Vector Byte 32
  /-- DUTY_TABLE[d][k]: true is the high level. -/
  dutyTable : Vector (Vector Bool 8) 4
  /-- RELEASE_START. -/
  releaseStart : BitVec 16
  /-- OUT_SQ. -/
  outSq : OutCurve
  /-- OUT_SAW. -/
  outSaw : OutCurve
  /-- SAVE_TAG. -/
  saveTags : SaveTags
  deriving DecidableEq, Repr

/-! Free values. None has a body a proof could see (log entries 7, 12, 13). -/

/-- Pixel `x` that the `n`-th failed size check leaves in LINE (44_bg_renderer.md R277: "unspecified contents"). -/
opaque Config.placeholder : Nat → Nat → Byte

/-- CPS less 1 in State.reset (45_audio.md R300: OPEN, a natural of at least 1). -/
opaque Config.cpsLessOne : Nat

/-- Whether CPS_SHIFT is 19 and not 18 in State.reset (45_audio.md R300: OPEN, 18 or 19). -/
opaque Config.cpsShiftIsNineteen : Bool

/-- Byte `j` of the tag of module `v` in State.reset (00_scope.md R6: OPEN). -/
opaque Config.saveTag : Nat → Nat → Byte

/-- An implementation's OUT_SQ, number k, at (vol, key, release) (45_audio.md R327: OPEN). -/
opaque Config.outSqTable : Nat → Nat → Bool → Nat → Nat

/-- An implementation's OUT_SAW, number k, at (lvl, key, release) (45_audio.md R334: OPEN). -/
opaque Config.outSawTable : Nat → Nat → Bool → Nat → Nat

/-- The default OUT_SQ at (vol, 0, r) for RELEASE_START = 0 and r > 0, which R327 does not state. -/
opaque Config.outSqUnstated : Nat → Nat → Nat

/-- The default OUT_SAW at (lvl, 0, r) for RELEASE_START = 0 and r > 0, which R334 does not state. -/
opaque Config.outSawUnstated : Nat → Nat → Nat

end Sys2Proof
end

