-- ==== Sys2Proof/Machine/AddrFields.lean ====
section
/-! DEFINITION. The fields of a CPU address that the components decode (20_memory.md R71, 30_encoding.md R109), used
by well-formedness and by the decoder. -/

namespace Sys2Proof

/-- BANDAI's decoding of an address: A[3:0] (40_bandai.md R130). -/
def portIndex (a : Addr) : BitVec 4 := a.extractLsb' 0 4

/-- The 4-bit window selector A[15:12] (41_mmc2_mmc4.md R170, 42_sunsoft.md R210). -/
def windowSel (a : Addr) : BitVec 4 := a.extractLsb' 12 4

/-- SAW_CHIP's register select A[1:0] (45_audio.md R306). -/
def sawSel (a : Addr) : BitVec 2 := a.extractLsb' 0 2

/-- `a` reaches BANDAI's port `n`: A is in $6000 to $FFFF and A[3:0] = n (R130). -/
def bandaiWindow (n : Nat) (a : Addr) : Bool := decide (0x6000 ≤ a.toNat) && decide ((portIndex a).toNat = n)

/-- `a` is in the window A[15:12] = n. -/
def inWindow (n : Nat) (a : Addr) : Bool := decide ((windowSel a).toNat = n)

/-- `a` reaches SAW_CHIP's register k: A[15:12] = $B and A[1:0] = k (R306). -/
def sawWindow (k : Nat) (a : Addr) : Bool := inWindow 0xB a && decide ((sawSel a).toNat = k)

end Sys2Proof
end

