-- ==== Sys2Proof/Syntax.lean ====
section
/-! DEFINITION. The instructions of the block: one constructor per mnemonic of spec/opcode_table.json (30_encoding.md R101,
R110). A bus write carries its whole CPU address `a` where the row leaves address bits free, and its value `v`. -/

namespace Sys2Proof

/-- One transaction as one component of the block decodes it. -/
inductive Instr
  -- BANDAI ports 0 to 15 (40_bandai.md)
  | bandaiChr0 (a : Addr) (v : Byte) -- BANDAI.CHR0
  | bandaiChr1 (a : Addr) (v : Byte) -- BANDAI.CHR1
  | bandaiChr2 (a : Addr) (v : Byte) -- BANDAI.CHR2
  | bandaiChr3 (a : Addr) (v : Byte) -- BANDAI.CHR3
  | bandaiChr4 (a : Addr) (v : Byte) -- BANDAI.CHR4
  | bandaiChr5 (a : Addr) (v : Byte) -- BANDAI.CHR5
  | bandaiChr6 (a : Addr) (v : Byte) -- BANDAI.CHR6
  | bandaiChr7 (a : Addr) (v : Byte) -- BANDAI.CHR7
  | bandaiPrg (a : Addr) (v : Byte) -- BANDAI.PRG
  | bandaiMirror (a : Addr) (v : Byte) -- BANDAI.MIRROR
  | bandaiIrqctl (a : Addr) (v : Byte) -- BANDAI.IRQCTL
  | bandaiLatchlo (a : Addr) (v : Byte) -- BANDAI.LATCHLO
  | bandaiLatchhi (a : Addr) (v : Byte) -- BANDAI.LATCHHI
  | bandaiPort13 (a : Addr) (v : Byte) -- BANDAI.PORT13
  | bandaiPort14 (a : Addr) (v : Byte) -- BANDAI.PORT14
  | bandaiPort15 (a : Addr) (v : Byte) -- BANDAI.PORT15
  -- MMC2 and MMC4 windows (41_mmc2_mmc4.md)
  | mmcUnclaimed (a : Addr) (v : Byte) -- MMCx.UNCLAIMED
  | mmc2Prg8 (a : Addr) (v : Byte) -- MMC2.PRG8
  | mmc4Prg16 (a : Addr) (v : Byte) -- MMC4.PRG16
  | mmcChrfd0 (a : Addr) (v : Byte) -- MMCx.CHRFD0
  | mmcChrfe0 (a : Addr) (v : Byte) -- MMCx.CHRFE0
  | mmcChrfd1 (a : Addr) (v : Byte) -- MMCx.CHRFD1
  | mmcChrfe1 (a : Addr) (v : Byte) -- MMCx.CHRFE1
  | mmcMirror (a : Addr) (v : Byte) -- MMCx.MIRROR
  -- SUNSOFT windows (42_sunsoft.md)
  | sunsoftChr0 (a : Addr) (v : Byte) -- SUNSOFT.CHR0
  | sunsoftChr1 (a : Addr) (v : Byte) -- SUNSOFT.CHR1
  | sunsoftChr2 (a : Addr) (v : Byte) -- SUNSOFT.CHR2
  | sunsoftChr3 (a : Addr) (v : Byte) -- SUNSOFT.CHR3
  | sunsoftNt0 (a : Addr) (v : Byte) -- SUNSOFT.NT0
  | sunsoftNt1 (a : Addr) (v : Byte) -- SUNSOFT.NT1
  | sunsoftNtctl (a : Addr) (v : Byte) -- SUNSOFT.NTCTL
  | sunsoftPrg (a : Addr) (v : Byte) -- SUNSOFT.PRG
  -- SQUARE_CHIP registers (45_audio.md), each at one whole address
  | sq0R0 (v : Byte) -- SQ0.R0
  | sq0R1 (v : Byte) -- SQ0.R1
  | sq0R2 (v : Byte) -- SQ0.R2
  | sq0R3 (v : Byte) -- SQ0.R3
  | sq1R0 (v : Byte) -- SQ1.R0
  | sq1R1 (v : Byte) -- SQ1.R1
  | sq1R2 (v : Byte) -- SQ1.R2
  | sq1R3 (v : Byte) -- SQ1.R3
  | sqDa (v : Byte) -- SQ.DA
  | sqEnable (v : Byte) -- SQ.ENABLE
  -- SAW_CHIP registers (45_audio.md)
  | sawR0 (a : Addr) (v : Byte) -- SAW.R0
  | sawR1 (a : Addr) (v : Byte) -- SAW.R1
  | sawR2 (a : Addr) (v : Byte) -- SAW.R2
  | sawR3 (a : Addr) (v : Byte) -- SAW.R3
  -- The other kinds (30_encoding.md R103 to R107)
  | ppuLatch (p : PpuAddr) -- PPU_LATCH
  | scanlineStart (line : BitVec 9) -- SCANLINE_START
  | predict (line : BitVec 9) -- PREDICT
  | reset -- RESET
  | renderLine (v : BitVec 15) (fineX : BitVec 3) (bgSel leftClip bgEnabled widthOk : Bool) -- RENDER_LINE
  | sample -- SAMPLE
  | save -- SAVE
  | load -- LOAD
  | init (id prg chr : Byte) (mirror audio : BitVec 2) -- INIT
  -- Reserved kinds (30_encoding.md R108), with the 28 bits below the kind
  | reservedA (rest : BitVec 28) -- RESERVED.A
  | reservedB (rest : BitVec 28) -- RESERVED.B
  | reservedC (rest : BitVec 28) -- RESERVED.C
  | reservedD (rest : BitVec 28) -- RESERVED.D
  | reservedE (rest : BitVec 28) -- RESERVED.E
  | reservedF (rest : BitVec 28) -- RESERVED.F
  deriving DecidableEq, Repr

end Sys2Proof
end

