-- ==== Sys2Proof/WellFormed.lean ====
section
/-! DEFINITION. When an instruction is one the encoding admits (30_encoding.md R102 to R108, R110): a bus write's
address lies in the window its row claims. -/

namespace Sys2Proof

/-- The instruction's operands are ones its encoding admits. -/
def Instr.wf (i : Instr) : Bool :=
  match i with
  | .bandaiChr0 a _ => bandaiWindow 0 a
  | .bandaiChr1 a _ => bandaiWindow 1 a
  | .bandaiChr2 a _ => bandaiWindow 2 a
  | .bandaiChr3 a _ => bandaiWindow 3 a
  | .bandaiChr4 a _ => bandaiWindow 4 a
  | .bandaiChr5 a _ => bandaiWindow 5 a
  | .bandaiChr6 a _ => bandaiWindow 6 a
  | .bandaiChr7 a _ => bandaiWindow 7 a
  | .bandaiPrg a _ => bandaiWindow 8 a
  | .bandaiMirror a _ => bandaiWindow 9 a
  | .bandaiIrqctl a _ => bandaiWindow 10 a
  | .bandaiLatchlo a _ => bandaiWindow 11 a
  | .bandaiLatchhi a _ => bandaiWindow 12 a
  | .bandaiPort13 a _ => bandaiWindow 13 a
  | .bandaiPort14 a _ => bandaiWindow 14 a
  | .bandaiPort15 a _ => bandaiWindow 15 a
  | .mmcUnclaimed a _ => inWindow 0x8 a || inWindow 0x9 a
  | .mmc2Prg8 a _ => inWindow 0xA a
  | .mmc4Prg16 a _ => inWindow 0xA a
  | .mmcChrfd0 a _ => inWindow 0xB a
  | .mmcChrfe0 a _ => inWindow 0xC a
  | .mmcChrfd1 a _ => inWindow 0xD a
  | .mmcChrfe1 a _ => inWindow 0xE a
  | .mmcMirror a _ => inWindow 0xF a
  | .sunsoftChr0 a _ => inWindow 0x8 a
  | .sunsoftChr1 a _ => inWindow 0x9 a
  | .sunsoftChr2 a _ => inWindow 0xA a
  | .sunsoftChr3 a _ => inWindow 0xB a
  | .sunsoftNt0 a _ => inWindow 0xC a
  | .sunsoftNt1 a _ => inWindow 0xD a
  | .sunsoftNtctl a _ => inWindow 0xE a
  | .sunsoftPrg a _ => inWindow 0xF a
  | .sq0R0 _ => true
  | .sq0R1 _ => true
  | .sq0R2 _ => true
  | .sq0R3 _ => true
  | .sq1R0 _ => true
  | .sq1R1 _ => true
  | .sq1R2 _ => true
  | .sq1R3 _ => true
  | .sqDa _ => true
  | .sqEnable _ => true
  | .sawR0 a _ => sawWindow 0 a
  | .sawR1 a _ => sawWindow 1 a
  | .sawR2 a _ => sawWindow 2 a
  | .sawR3 a _ => sawWindow 3 a
  | .ppuLatch _ => true
  | .scanlineStart _ => true
  | .predict _ => true
  | .reset => true
  | .renderLine _ _ _ _ _ _ => true
  | .sample => true
  | .save => true
  | .load => true
  | .init _ _ _ _ audio => decide (audio ≠ 3#2)
  | .reservedA _ => true
  | .reservedB _ => true
  | .reservedC _ => true
  | .reservedD _ => true
  | .reservedE _ => true
  | .reservedF _ => true

end Sys2Proof
end

