-- ==== Sys2Proof/Decode.lean ====
section
/-! DEFINITION. The decoder of transaction words and the encoder (30_encoding.md). A bus write is decoded by every
component for itself (R109), so the decoder takes the selection (active mapper, audio module) beside the word. -/

namespace Sys2Proof

/-- Why the decoder refuses a word (30_encoding.md R108 (b) and (c)). -/
inductive DecodeError
  | mustBeZero
  | audioReserved
  deriving DecidableEq, Repr

/-- What a word decodes to: one transaction of the block, or a bus write with what the active mapper and the audio
module make of it (either may not claim the address). -/
inductive Decoded
  | one (i : Instr)
  | write (mapper audio : Option Instr)
  deriving DecidableEq, Repr

/-! Each component's own decoding of a bus write (R109, R110). -/

/-- BANDAI: port A[3:0] in $6000 to $FFFF (40_bandai.md R130). -/
def bandaiPort (a : Addr) (v : Byte) : Option Instr :=
  if a.toNat < 0x6000 then none
  else match (portIndex a).toNat with
    | 0 => some (.bandaiChr0 a v)
    | 1 => some (.bandaiChr1 a v)
    | 2 => some (.bandaiChr2 a v)
    | 3 => some (.bandaiChr3 a v)
    | 4 => some (.bandaiChr4 a v)
    | 5 => some (.bandaiChr5 a v)
    | 6 => some (.bandaiChr6 a v)
    | 7 => some (.bandaiChr7 a v)
    | 8 => some (.bandaiPrg a v)
    | 9 => some (.bandaiMirror a v)
    | 10 => some (.bandaiIrqctl a v)
    | 11 => some (.bandaiLatchlo a v)
    | 12 => some (.bandaiLatchhi a v)
    | 13 => some (.bandaiPort13 a v)
    | 14 => some (.bandaiPort14 a v)
    | _ => some (.bandaiPort15 a v)

/-- MMC2 and MMC4: window A[15:12]; $8 and $9 are not claimed, which the table lists as MMCx.UNCLAIMED
(41_mmc2_mmc4.md R170, R177). `prg` is the variant's own register at $A. -/
def mmcPort (prg : Addr → Byte → Instr) (a : Addr) (v : Byte) : Option Instr :=
  match (windowSel a).toNat with
  | 0x8 => some (.mmcUnclaimed a v)
  | 0x9 => some (.mmcUnclaimed a v)
  | 0xA => some (prg a v)
  | 0xB => some (.mmcChrfd0 a v)
  | 0xC => some (.mmcChrfe0 a v)
  | 0xD => some (.mmcChrfd1 a v)
  | 0xE => some (.mmcChrfe1 a v)
  | 0xF => some (.mmcMirror a v)
  | _ => none

/-- SUNSOFT: window A[15:12] in $8 to $F (42_sunsoft.md R210). -/
def sunsoftPort (a : Addr) (v : Byte) : Option Instr :=
  match (windowSel a).toNat with
  | 0x8 => some (.sunsoftChr0 a v)
  | 0x9 => some (.sunsoftChr1 a v)
  | 0xA => some (.sunsoftChr2 a v)
  | 0xB => some (.sunsoftChr3 a v)
  | 0xC => some (.sunsoftNt0 a v)
  | 0xD => some (.sunsoftNt1 a v)
  | 0xE => some (.sunsoftNtctl a v)
  | 0xF => some (.sunsoftPrg a v)
  | _ => none

/-- SQUARE_CHIP: exactly the addresses of 45_audio.md R305. -/
def squarePort (a : Addr) (v : Byte) : Option Instr :=
  match a.toNat with
  | 0x5000 => some (.sq0R0 v)
  | 0x5001 => some (.sq0R1 v)
  | 0x5002 => some (.sq0R2 v)
  | 0x5003 => some (.sq0R3 v)
  | 0x5004 => some (.sq1R0 v)
  | 0x5005 => some (.sq1R1 v)
  | 0x5006 => some (.sq1R2 v)
  | 0x5007 => some (.sq1R3 v)
  | 0x5011 => some (.sqDa v)
  | 0x5015 => some (.sqEnable v)
  | _ => none

/-- SAW_CHIP: A[15:12] = $B, register A[1:0] (45_audio.md R306). -/
def sawPort (a : Addr) (v : Byte) : Option Instr :=
  if inWindow 0xB a then
    match (sawSel a).toNat with
    | 0 => some (.sawR0 a v)
    | 1 => some (.sawR1 a v)
    | 2 => some (.sawR2 a v)
    | _ => some (.sawR3 a v)
  else none

/-- What the active mapper makes of a write. -/
def mapperPort (m : Active) (a : Addr) (v : Byte) : Option Instr :=
  match m with
  | .none => none
  | .bandai => bandaiPort a v
  | .mmc2 => mmcPort .mmc2Prg8 a v
  | .mmc4 => mmcPort .mmc4Prg16 a v
  | .sunsoft => sunsoftPort a v

/-- What the audio module makes of a write. -/
def audioPort (o : AudioOption) (a : Addr) (v : Byte) : Option Instr :=
  match o with
  | .none => none
  | .square => squarePort a v
  | .saw => sawPort a v

/-! The fields of a transaction word. -/

/-- w[31:28] (R100). -/
def kindOf (w : TxWord) : BitVec 4 := w.extractLsb' 28 4

/-- The address of a WR word, w[23:8] (R102). -/
def wrAddr (w : TxWord) : Addr := w.extractLsb' 8 16

/-- The value of a WR word, w[7:0] (R102). -/
def wrVal (w : TxWord) : Byte := w.extractLsb' 0 8

/-- `i` if the must-be-0 field is 0, else the refusal of R108(b). -/
def whenZero (field : Nat) (i : Instr) : Except DecodeError Decoded :=
  if field = 0 then .ok (.one i) else .error .mustBeZero

/-- RENDER_LINE with the operands of R106. -/
def renderOf (w : TxWord) : Instr :=
  .renderLine (w.extractLsb' 0 15) (w.extractLsb' 15 3) (w.getLsbD 18) (w.getLsbD 19) (w.getLsbD 20) (w.getLsbD 21)

/-- INIT with the operands of R107. -/
def initOf (w : TxWord) : Instr :=
  .init (w.extractLsb' 20 8) (w.extractLsb' 0 8) (w.extractLsb' 8 8) (w.extractLsb' 16 2) (w.extractLsb' 18 2)

/-- The decoder (R100, R101, R108): total on every word, refusing by name. The reserved kinds decode to the table's
RESERVED rows, whose meanings refuse. -/
def decode (sel : Selection) (w : TxWord) : Except DecodeError Decoded :=
  match (kindOf w).toNat with
  | 0x0 =>
    if (w.extractLsb' 24 4).toNat = 0 then
      .ok (.write (mapperPort sel.active (wrAddr w) (wrVal w)) (audioPort sel.audio (wrAddr w) (wrVal w)))
    else .error .mustBeZero
  | 0x1 => whenZero (w.extractLsb' 14 14).toNat (.ppuLatch (w.extractLsb' 0 14))
  | 0x2 => whenZero (w.extractLsb' 9 19).toNat (.scanlineStart (w.extractLsb' 0 9))
  | 0x3 => whenZero (w.extractLsb' 9 19).toNat (.predict (w.extractLsb' 0 9))
  | 0x4 => whenZero (w.extractLsb' 0 28).toNat .reset
  | 0x5 => whenZero (w.extractLsb' 22 6).toNat (renderOf w)
  | 0x6 => whenZero (w.extractLsb' 0 28).toNat .sample
  | 0x7 => whenZero (w.extractLsb' 0 28).toNat .save
  | 0x8 => whenZero (w.extractLsb' 0 28).toNat .load
  | 0x9 => if (w.extractLsb' 18 2).toNat = 3 then .error .audioReserved else .ok (.one (initOf w))
  | 0xA => .ok (.one (.reservedA (w.extractLsb' 0 28)))
  | 0xB => .ok (.one (.reservedB (w.extractLsb' 0 28)))
  | 0xC => .ok (.one (.reservedC (w.extractLsb' 0 28)))
  | 0xD => .ok (.one (.reservedD (w.extractLsb' 0 28)))
  | 0xE => .ok (.one (.reservedE (w.extractLsb' 0 28)))
  | _ => .ok (.one (.reservedF (w.extractLsb' 0 28)))

/-! The encoder (R102 to R107). -/

/-- The WR word of address `a` and value `v` (R102): w = A << 8 | V. -/
def wrWord (a : Addr) (v : Byte) : TxWord := 0#8 ++ a ++ v

/-- A word with only a kind and the 28 bits below it. -/
def kindWord (k : BitVec 4) (rest : BitVec 28) : TxWord := k ++ rest

/-- The word of an instruction. -/
def encode (i : Instr) : TxWord :=
  match i with
  | .bandaiChr0 a v => wrWord a v
  | .bandaiChr1 a v => wrWord a v
  | .bandaiChr2 a v => wrWord a v
  | .bandaiChr3 a v => wrWord a v
  | .bandaiChr4 a v => wrWord a v
  | .bandaiChr5 a v => wrWord a v
  | .bandaiChr6 a v => wrWord a v
  | .bandaiChr7 a v => wrWord a v
  | .bandaiPrg a v => wrWord a v
  | .bandaiMirror a v => wrWord a v
  | .bandaiIrqctl a v => wrWord a v
  | .bandaiLatchlo a v => wrWord a v
  | .bandaiLatchhi a v => wrWord a v
  | .bandaiPort13 a v => wrWord a v
  | .bandaiPort14 a v => wrWord a v
  | .bandaiPort15 a v => wrWord a v
  | .mmcUnclaimed a v => wrWord a v
  | .mmc2Prg8 a v => wrWord a v
  | .mmc4Prg16 a v => wrWord a v
  | .mmcChrfd0 a v => wrWord a v
  | .mmcChrfe0 a v => wrWord a v
  | .mmcChrfd1 a v => wrWord a v
  | .mmcChrfe1 a v => wrWord a v
  | .mmcMirror a v => wrWord a v
  | .sunsoftChr0 a v => wrWord a v
  | .sunsoftChr1 a v => wrWord a v
  | .sunsoftChr2 a v => wrWord a v
  | .sunsoftChr3 a v => wrWord a v
  | .sunsoftNt0 a v => wrWord a v
  | .sunsoftNt1 a v => wrWord a v
  | .sunsoftNtctl a v => wrWord a v
  | .sunsoftPrg a v => wrWord a v
  | .sq0R0 v => wrWord 0x5000#16 v
  | .sq0R1 v => wrWord 0x5001#16 v
  | .sq0R2 v => wrWord 0x5002#16 v
  | .sq0R3 v => wrWord 0x5003#16 v
  | .sq1R0 v => wrWord 0x5004#16 v
  | .sq1R1 v => wrWord 0x5005#16 v
  | .sq1R2 v => wrWord 0x5006#16 v
  | .sq1R3 v => wrWord 0x5007#16 v
  | .sqDa v => wrWord 0x5011#16 v
  | .sqEnable v => wrWord 0x5015#16 v
  | .sawR0 a v => wrWord a v
  | .sawR1 a v => wrWord a v
  | .sawR2 a v => wrWord a v
  | .sawR3 a v => wrWord a v
  | .ppuLatch p => kindWord 0x1#4 (0#14 ++ p)
  | .scanlineStart line => kindWord 0x2#4 (0#19 ++ line)
  | .predict line => kindWord 0x3#4 (0#19 ++ line)
  | .reset => kindWord 0x4#4 0#28
  | .renderLine v fineX bgSel leftClip bgEnabled widthOk =>
    kindWord 0x5#4 (0#6 ++ (BitVec.ofBool widthOk ++ BitVec.ofBool bgEnabled ++ BitVec.ofBool leftClip ++ BitVec.ofBool bgSel) ++ fineX ++ v)
  | .sample => kindWord 0x6#4 0#28
  | .save => kindWord 0x7#4 0#28
  | .load => kindWord 0x8#4 0#28
  | .init id prg chr mirror audio => kindWord 0x9#4 (id ++ audio ++ mirror ++ chr ++ prg)
  | .reservedA rest => kindWord 0xA#4 rest
  | .reservedB rest => kindWord 0xB#4 rest
  | .reservedC rest => kindWord 0xC#4 rest
  | .reservedD rest => kindWord 0xD#4 rest
  | .reservedE rest => kindWord 0xE#4 rest
  | .reservedF rest => kindWord 0xF#4 rest

/-! Reading a table word without a machine. A WR word is read by the component that `tableSelection` names, since the
word alone does not say which cartridge it is for (log entry 4). -/

/-- The cartridge for which a word standing alone is read: SQUARE_CHIP at $5xxx, BANDAI below $9000, SAW_CHIP at
$Bxxx with A[1:0] other than 0, else MMC2. -/
def tableSelection (w : TxWord) : Selection :=
  let a := wrAddr w
  let win := (windowSel a).toNat
  if (kindOf w).toNat ≠ 0 then ⟨.bandai, .none⟩
  else if win = 0x5 then ⟨.bandai, .square⟩
  else if win < 0x9 then ⟨.bandai, .none⟩
  else if win = 0xB ∧ (sawSel a).toNat ≠ 0 then ⟨.bandai, .saw⟩
  else ⟨.mmc2, .none⟩

/-- The one instruction a decoded word is listed as: the audio module's where it claims the address, else the
mapper's. -/
def Decoded.listed (d : Decoded) : Option Instr :=
  match d with
  | .one i => some i
  | .write m a => a <|> m

/-- The word of `nbits` bits numbered as the opcode table numbers them: a transaction is one 32-bit word (R100). -/
def tableWord (nbits w : Nat) : TxWord := BitVec.ofNat 32 (w % 2 ^ nbits)

/-- The instruction the decoder reads from a table word. -/
def decodeTableWord (nbits w : Nat) : Option Instr :=
  match decode (tableSelection (tableWord nbits w)) (tableWord nbits w) with
  | .ok d => d.listed
  | .error _ => none

end Sys2Proof
end

