-- ==== Sys2Proof/Machine/Registers.lean ====
section
/-! DEFINITION. The block's registers as plain data (10_state.md R25 to R27, R29, R31, R39 to R41), its outputs and the
inputs it is given (00_scope.md R9). -/

namespace Sys2Proof.Machine

/-- What INIT fixes of the configuration (10_state.md R20), less the model arguments. -/
structure Cartridge where
  /-- MAPPER_ID. -/
  mapperId : Byte
  /-- PRG_PAGES, in 16 KiB pages. -/
  prgPages : Byte
  /-- CHR_PAGES, in 8 KiB pages. -/
  chrPages : Byte
  /-- HEADER_MIRRORING. -/
  headerMirroring : MirrorMode
  /-- AUDIO_OPTION. -/
  audioOption : AudioOption
  deriving DecidableEq, Repr

/-- The BANDAI register file (R25). -/
structure BandaiRegs where
  /-- b_chr[0..7]. -/
  chr : Vector Byte 8
  /-- b_prg. -/
  prg : Byte
  /-- b_mirror. -/
  mirror : MirrorMode
  /-- irq_enable. -/
  irqEnable : Bool
  /-- irq_counter. -/
  irqCounter : BitVec 16
  /-- irq_latch. -/
  irqLatch : BitVec 16
  deriving DecidableEq, Repr

/-- The MMC2 and MMC4 register file (R26). -/
structure MmcRegs where
  /-- m_prg. -/
  prg : Byte
  /-- m_chr_fd0. -/
  chrFd0 : Byte
  /-- m_chr_fe0. -/
  chrFe0 : Byte
  /-- m_chr_fd1. -/
  chrFd1 : Byte
  /-- m_chr_fe1. -/
  chrFe1 : Byte
  /-- m_mirror. -/
  mirror : MirrorMode
  /-- latch0. -/
  latch0 : Byte
  /-- latch1. -/
  latch1 : Byte
  deriving DecidableEq, Repr

/-- The SUNSOFT register file (R27). -/
structure SunsoftRegs where
  /-- s_chr[0..3]. -/
  chr : Vector Byte 4
  /-- s_nt[0..1]. -/
  nt : Vector Byte 2
  /-- s_ntctl. -/
  ntctl : Byte
  /-- s_prg. -/
  prg : Byte
  deriving DecidableEq, Repr

/-- NtSource (R31): a half of CIRAM or a 1 KiB CHR ROM page. -/
inductive NtSource
  | ciram (half : Fin 2)
  | chr (page : Nat)
  deriving DecidableEq, Repr

/-- The bus view (R29): the selections pushed to the memory bus and the pattern store. Pages are numbers. -/
structure BusView where
  /-- prg_slot[0..3], 8 KiB pages at $8000, $A000, $C000, $E000. -/
  prgSlot : Vector Nat 4
  /-- chr_slot[0..7], 1 KiB pages. -/
  chrSlot : Vector Nat 8
  /-- nt_src[0..3]. -/
  ntSrc : Vector NtSource 4
  deriving DecidableEq, Repr

/-- The derived record of a square channel (45_audio.md R311). -/
structure SquareDerived where
  duty : BitVec 2
  loop : Bool
  const : Bool
  vol : BitVec 4
  envStep : Nat
  sweepEn : Bool
  sweepStep : Nat
  negate : Bool
  shift : BitVec 3
  period : BitVec 11
  waveStep : Nat
  deriving DecidableEq, Repr

/-- A square channel (10_state.md R39). -/
structure SquareChannel where
  regs : Vector Byte 4
  update : BitVec 4
  enabled : Bool
  key : Bool
  length : Byte
  envVol : BitVec 4
  dutyPos : BitVec 3
  release : BitVec 16
  envPhase : Nat
  lenPhase : Nat
  sweepPhase : Nat
  wavePhase : Nat
  d : SquareDerived
  deriving DecidableEq, Repr

/-- The derived record of a saw channel (45_audio.md R331). -/
structure SawDerived where
  rate : BitVec 6
  period : BitVec 12
  enable : Bool
  waveStep : Nat
  deriving DecidableEq, Repr

/-- A saw channel (10_state.md R40). -/
structure SawChannel where
  regs : Vector Byte 3
  update : BitVec 3
  key : Bool
  stepPos : BitVec 4
  acc : Byte
  release : BitVec 16
  wavePhase : Nat
  d : SawDerived
  deriving DecidableEq, Repr

/-- PREDICT's answer (43_irq.md R242). -/
inductive Answer
  | trigger
  | noTrigger
  deriving DecidableEq, Repr

/-- INIT's result codes (60_exceptions.md R380). -/
inductive InitResult
  /-- Code 0. -/
  | ok
  /-- Code 1: needs more pages. -/
  | insufficient
  /-- Code 2: unsupported page count shape. -/
  | unsupported
  deriving DecidableEq, Repr

/-- What the last input reported (00_scope.md R9, 10_state.md R33, 20_memory.md R72). -/
structure Report where
  /-- irq_edge. -/
  irqEdge : Bool := false
  /-- PREDICT's answer. -/
  predict : Option Answer := none
  /-- SAMPLE's answer. -/
  sample : Option Nat := none
  /-- INIT's result code. -/
  initResult : Option InitResult := none
  /-- The bytes a SAVE wrote. -/
  saved : List Byte := []
  /-- The byte a CPU read returned, none where the block does not serve the address. -/
  cpuRead : Option Byte := none
  deriving DecidableEq, Repr

/-- What the outside world hands to the block (00_scope.md R9; log entries 2, 10, 11, 21). -/
inductive Input
  /-- One transaction word (30_encoding.md R100). -/
  | transaction (w : TxWord)
  /-- The external CPU reads an address (20_memory.md R72). -/
  | cpuRead (a : Addr)
  /-- The external PPU writes CIRAM (20_memory.md R77). -/
  | ciramWrite (off : BitVec 11) (v : Byte)
  /-- The host hands over a save stream for LOAD (20_memory.md R79, 30_encoding.md R105). -/
  | saveStream (bytes : List Byte)
  deriving DecidableEq, Repr

/-- A byte-addressed memory: the bytes that differ from what an unlisted address reads as, by rising address. -/
abbrev Memory := List Host.Cell

end Sys2Proof.Machine
end

