-- ==== Sys2Proof/Machine/Flags.lean ====
section
/-! DEFINITION. The block's flags: the interrupt counter's enable and edge (43_irq.md), the latches' trigger tiles
(41_mmc2_mmc4.md R180) and the audio dirty masks (45_audio.md R308). -/

namespace Sys2Proof.Machine

/-! The interrupt counter (43_irq.md R240 to R242). `d` is PSEUDO_CLOCKS_PER_SCANLINE. -/

/-- A commit on these registers raises the edge: the counter is enabled and at most `d`. -/
def commitFires (d : Nat) (r : BandaiRegs) : Bool := r.irqEnable && decide (r.irqCounter.toNat ≤ d)

/-- What a commit leaves in irq_counter and irq_enable (R240). -/
def commitRegs (d : Nat) (r : BandaiRegs) : BandaiRegs :=
  if r.irqEnable then
    if r.irqCounter.toNat ≤ d then { r with irqCounter := 0, irqEnable := false }
    else { r with irqCounter := BitVec.ofNat 16 (r.irqCounter.toNat - d) }
  else r

/-- PREDICT's answer for an enabled counter: the decrement on an integer copy of the counter (R242). -/
def predictCopy (d : Nat) (r : BandaiRegs) : Answer :=
  let copy : Int := (r.irqCounter.toNat : Int) - d
  if copy ≤ 0 then .trigger else .noTrigger

/-! The latches' trigger tiles (41_mmc2_mmc4.md R180, R187). -/

/-- The tile moves a latch. -/
def isTrigger (t : Byte) : Bool := t = 0xFD || t = 0xFE

/-! The dirty masks (45_audio.md R308). -/

/-- update | (1 << k) of a square channel. -/
def markSquare (u : BitVec 4) (k : Fin 4) : BitVec 4 := u ||| (1#4 <<< k.val)

/-- update | (1 << k) of a saw channel. -/
def markSaw (u : BitVec 3) (k : Fin 3) : BitVec 3 := u ||| (1#3 <<< k.val)

end Sys2Proof.Machine
end

