-- ==== Sys2Proof/Machine/Operands.lean ====
section
/-! DEFINITION. The operand fields of every form: the mirroring code, the name-table cursor, the pattern address, the
audio register fields, the step functions of the audio numerics, and the decoding into derived records. -/

namespace Sys2Proof

/-! The step functions (45_audio.md R300): the given one, else the default, which follows ENV_UNIT and CPS_SHIFT. -/

/-- ENV_STEP(r), r = 0 to 15: by default `(r + 1) · ENV_UNIT · 2^CPS_SHIFT`. -/
def ModelArgs.envStep (args : ModelArgs) : Vector Nat 16 :=
  args.envStepGiven.getD (Vector.ofFn fun r : Fin 16 => (r.val + 1) * args.envUnit * 2 ^ args.cpsShift)

/-- LEN_STEP: by default `2 · ENV_UNIT · 2^CPS_SHIFT`. -/
def ModelArgs.lenStep (args : ModelArgs) : Nat := args.lenStepGiven.getD (2 * args.envUnit * 2 ^ args.cpsShift)

/-- SWEEP_STEP(p), p = 0 to 7: by default `(p + 1) · 2 · ENV_UNIT · 2^CPS_SHIFT`. -/
def ModelArgs.sweepStep (args : ModelArgs) : Vector Nat 8 :=
  args.sweepStepGiven.getD (Vector.ofFn fun p : Fin 8 => (p.val + 1) * 2 * args.envUnit * 2 ^ args.cpsShift)

end Sys2Proof

namespace Sys2Proof.Machine

/-! Mirroring codes (10_state.md R31). -/

/-- The mode of a 2-bit code. -/
def modeOf (c : BitVec 2) : MirrorMode :=
  match c.toNat with
  | 0 => .vertical
  | 1 => .horizontal
  | 2 => .singleLow
  | _ => .singleHigh

/-- The code of a mode. -/
def codeOf (m : MirrorMode) : BitVec 2 :=
  match m with
  | .vertical => 0#2
  | .horizontal => 1#2
  | .singleLow => 2#2
  | .singleHigh => 3#2

/-- V[1:0] of a written value. -/
def low2 (v : Byte) : BitVec 2 := v.extractLsb' 0 2

/-! The name-table cursor (10_state.md R35). -/

/-- coarse_x = v[4:0]. -/
def coarseX (v : BitVec 15) : BitVec 5 := v.extractLsb' 0 5

/-- coarse_y = v[9:5]. -/
def coarseY (v : BitVec 15) : BitVec 5 := v.extractLsb' 5 5

/-- nt_h = v[10]. -/
def ntH (v : BitVec 15) : Bool := v.getLsbD 10

/-- nt_v = v[11]. -/
def ntV (v : BitVec 15) : Bool := v.getLsbD 11

/-- fine_y = v[14:12]. -/
def fineY (v : BitVec 15) : BitVec 3 := v.extractLsb' 12 3

/-! The pattern address (20_memory.md R75; 41_mmc2_mmc4.md R180). -/

/-- P[13]: the address is in the name-table range and moves no latch. -/
def ppuBeyondPatterns (p : PpuAddr) : Bool := p.getLsbD 13

/-- P[12]: the pattern-table half. -/
def ppuHalf (p : PpuAddr) : Bool := p.getLsbD 12

/-- P[11:4]: the tile index. -/
def ppuTile (p : PpuAddr) : Byte := p.extractLsb' 4 8

/-- P[12:10]: the pattern block. -/
def ppuBlock (p : PpuAddr) : BitVec 3 := p.extractLsb' 10 3

/-- P[9:0]: the offset in the pattern block. -/
def ppuOffset (p : PpuAddr) : BitVec 10 := p.extractLsb' 0 10

/-- pa = bg_base | (t << 4) (44_bg_renderer.md R267), with bg_base = bg_sel × 0x1000 (30_encoding.md R106). -/
def patternAddr (bgSel : Bool) (t : Byte) : PpuAddr :=
  (if bgSel then 0x1000#14 else 0#14) ||| (t.zeroExtend 14 <<< 4)

/-! The CPU address of a PRG read (20_memory.md R72). -/

/-- A[14:13], which is (A − 0x8000) >> 13 for A in $8000 to $FFFF. -/
def prgWindow (a : Addr) : BitVec 2 := a.extractLsb' 13 2

/-- A[12:0]. -/
def prgOffset (a : Addr) : BitVec 13 := a.extractLsb' 0 13

/-! Square registers (45_audio.md R302). -/

/-- regs[3][2:0] ++ regs[2]: the 11-bit period. -/
def squarePeriod (regs : Vector Byte 4) : BitVec 11 := regs[3].extractLsb' 0 3 ++ regs[2]

/-- The wave step of a square period: (period + 1) × 2 × 2^CPS_SHIFT (R311). -/
def squareWaveStep (args : ModelArgs) (period : BitVec 11) : Nat := (period.toNat + 1) * 2 * 2 ^ args.cpsShift

/-- `Decode(regs)` (45_audio.md R311). Every step is clamped to at least 1. -/
def squareDecode (args : ModelArgs) (regs : Vector Byte 4) : SquareDerived where
  duty := regs[0].extractLsb' 6 2
  loop := regs[0].getLsbD 5
  const := regs[0].getLsbD 4
  vol := regs[0].extractLsb' 0 4
  envStep := max 1 args.envStep[(regs[0].extractLsb' 0 4).toNat]
  sweepEn := regs[1].getLsbD 7
  sweepStep := max 1 args.sweepStep[(regs[1].extractLsb' 4 3).toNat]
  negate := regs[1].getLsbD 3
  shift := regs[1].extractLsb' 0 3
  period := squarePeriod regs
  waveStep := squareWaveStep args (squarePeriod regs)

/-- regs[3][7:3]: the LENGTH_TABLE index. -/
def lengthIndex (regs : Vector Byte 4) : BitVec 5 := regs[3].extractLsb' 3 5

/-! Saw registers (45_audio.md R303). -/

/-- regs[2][3:0] ++ regs[1]: the 12-bit period. -/
def sawPeriod (regs : Vector Byte 3) : BitVec 12 := regs[2].extractLsb' 0 4 ++ regs[1]

/-- `DecodeSaw(regs)` (45_audio.md R331). -/
def sawDecode (args : ModelArgs) (regs : Vector Byte 3) : SawDerived where
  rate := regs[0].extractLsb' 0 6
  period := sawPeriod regs
  enable := regs[2].getLsbD 7
  waveStep := ((sawPeriod regs).toNat + 1) * 2 ^ args.cpsShift

end Sys2Proof.Machine
end

