-- ==== Sys2Proof/Machine/ResetValues.lean ====
section
/-! DEFINITION. The reset columns of the register files (10_state.md R25 to R27, R39 to R41; 70_reset_and_hazards.md
R400) and the defaults of the model arguments (45_audio.md R300, R304). -/

namespace Sys2Proof.Machine

/-! The model arguments' defaults. -/

/-- LENGTH_TABLE (45_audio.md R304). -/
def defaultLengthTable : Vector Byte 32 :=
  #v[10, 254, 20, 2, 40, 4, 80, 6, 160, 8, 60, 10, 14, 12, 26, 14,
     12, 16, 24, 18, 48, 20, 96, 22, 192, 24, 72, 26, 16, 28, 32, 30]

/-- DUTY_TABLE (45_audio.md R304). -/
def defaultDutyTable : Vector (Vector Bool 8) 4 :=
  #v[#v[false, true, false, false, false, false, false, false],
     #v[false, true, true, false, false, false, false, false],
     #v[false, true, true, true, true, false, false, false],
     #v[true, false, false, true, true, true, true, true]]

/-- CEILING (45_audio.md R301): for each shift s the largest period p with p + (p >> s) ≤ $7FF. -/
def ceilingTable : Vector Nat 8 := #v[0x3FF, 0x555, 0x666, 0x71C, 0x787, 0x7C1, 0x7E0, 0x7F0]

/-- The default of ENV_UNIT (45_audio.md R300). -/
def defaultEnvUnit : Nat := 7457

/-- The model arguments at their defaults, given the three that have none: CPS, CPS_SHIFT and SAVE_TAG. -/
def defaultArgs (cps cpsShift : Nat) (tags : SaveTags) : ModelArgs where
  pseudoClocks := 1
  cps := cps
  cpsShift := cpsShift
  envUnit := defaultEnvUnit
  envStepGiven := none
  lenStepGiven := none
  sweepStepGiven := none
  hasSweep := true
  periodFloor := 8
  ceiling := ceilingTable
  lengthTable := defaultLengthTable
  dutyTable := defaultDutyTable
  releaseStart := 0
  outSq := .linear
  outSaw := .linear
  saveTags := tags

/-- The tag of module `v` in State.reset: 8 free bytes (log entry 12). -/
def openTag (v : Nat) : Vector Byte 8 := Vector.ofFn fun j : Fin 8 => Config.saveTag v j.val

/-- The model arguments of State.reset: the OPEN ones are free values within their bounds (log entry 12). -/
def openArgs : ModelArgs :=
  defaultArgs (Config.cpsLessOne + 1) (if Config.cpsShiftIsNineteen then 19 else 18)
    { bandai := openTag 0, mmc2 := openTag 1, mmc4 := openTag 2, sunsoft := openTag 3, square := openTag 4, saw := openTag 5 }

/-! The reset columns. `m` is HEADER_MIRRORING. -/

/-- BANDAI (R25). -/
def bandaiReset (m : MirrorMode) : BandaiRegs where
  chr := #v[0, 1, 2, 3, 4, 5, 6, 7]
  prg := 0
  mirror := m
  irqEnable := false
  irqCounter := 0
  irqLatch := 0

/-- MMC2 and MMC4 (R26). -/
def mmcReset (m : MirrorMode) : MmcRegs where
  prg := 0
  chrFd0 := 0
  chrFe0 := 0
  chrFd1 := 1
  chrFe1 := 1
  mirror := m
  latch0 := 0xFE
  latch1 := 0xFE

/-- SUNSOFT (R27). -/
def sunsoftReset (m : MirrorMode) : SunsoftRegs where
  chr := #v[0, 1, 2, 3]
  nt := #v[0, 0]
  ntctl := (codeOf m).zeroExtend 8
  prg := 0

/-- A square channel with every field 0 and d = Decode(0) (R39, 46_lifecycle.md R366). -/
def squareReset (args : ModelArgs) : SquareChannel where
  regs := #v[0, 0, 0, 0]
  update := 0
  enabled := false
  key := false
  length := 0
  envVol := 0
  dutyPos := 0
  release := 0
  envPhase := 0
  lenPhase := 0
  sweepPhase := 0
  wavePhase := 0
  d := squareDecode args #v[0, 0, 0, 0]

/-- A saw channel with every field 0 and d = DecodeSaw(0) (R40, 46_lifecycle.md R366). -/
def sawReset (args : ModelArgs) : SawChannel where
  regs := #v[0, 0, 0]
  update := 0
  key := false
  stepPos := 0
  acc := 0
  release := 0
  wavePhase := 0
  d := sawDecode args #v[0, 0, 0]

/-- The SetMirroring table (10_state.md R32). -/
def mirrorTable (m : MirrorMode) : Vector NtSource 4 :=
  match m with
  | .vertical => #v[.ciram 0, .ciram 1, .ciram 0, .ciram 1]
  | .horizontal => #v[.ciram 0, .ciram 0, .ciram 1, .ciram 1]
  | .singleLow => #v[.ciram 0, .ciram 0, .ciram 0, .ciram 0]
  | .singleHigh => #v[.ciram 1, .ciram 1, .ciram 1, .ciram 1]

/-- The configuration before any cartridge is claimed, which the spec does not describe (R401; log entry 1). -/
def noCartridge : Cartridge where
  mapperId := 0
  prgPages := 0
  chrPages := 0
  headerMirroring := .vertical
  audioOption := .none

/-- The bus view before any cartridge is claimed, which the spec does not describe (R401; log entry 1). -/
def noView : BusView where
  prgSlot := #v[0, 0, 0, 0]
  chrSlot := #v[0, 0, 0, 0, 0, 0, 0, 0]
  ntSrc := mirrorTable .vertical

/-- LINE filled with the colour-0 value (44_bg_renderer.md R263). -/
def lineFill : Vector Byte 256 := Vector.replicate 256 0

end Sys2Proof.Machine
end

