-- ==== Sys2Proof/Machine/State.lean ====
section
/-! DEFINITION. The block's state as plain data (10_state.md), the reasons it can refuse, and the state before the first
INIT. -/

namespace Sys2Proof.Machine

/-- Everything the spec gives the block, with the launch memory it reads (R42) and the inputs it is still to be given. -/
structure State where
  /-- The model arguments, part of the configuration (R20). No transaction changes them. -/
  args : ModelArgs
  /-- What INIT fixed of the configuration (R20). -/
  cart : Cartridge
  /-- active (R23). -/
  active : Active
  /-- The BANDAI registers (R25). -/
  bandai : BandaiRegs
  /-- The MMC2 or MMC4 registers (R26). -/
  mmc : MmcRegs
  /-- The SUNSOFT registers (R27). -/
  sunsoft : SunsoftRegs
  /-- The bus view (R29). -/
  view : BusView
  /-- sq[0] (R39, R41). -/
  sq0 : SquareChannel
  /-- sq[1] (R39, R41). -/
  sq1 : SquareChannel
  /-- da_value (R41). -/
  da : Byte
  /-- sw (R40, R41). -/
  saw : SawChannel
  /-- LINE[0..255] (R36). -/
  line : Vector Byte 256
  /-- PRG ROM (20_memory.md R73). -/
  prgRom : Memory
  /-- CHR ROM (20_memory.md R73). -/
  chrRom : Memory
  /-- The console's name-table RAM (20_memory.md R77). -/
  ciram : Memory
  /-- The save stream: bytes written and not yet read (20_memory.md R79). -/
  stream : List Byte
  /-- The position: the index of the next transaction (R24). -/
  pos : Nat
  /-- What the last input reported (00_scope.md R9). -/
  out : Report
  /-- The inputs still to be delivered, next first (the model's own; log entry 2). -/
  inputs : List Input
  /-- How many free values have been taken (the model's own; log entry 8). -/
  freeCount : Nat
  deriving DecidableEq, Repr

/-- The block has no fault: it traps nothing (60_exceptions.md R386, R389) and every access it makes is to an existing
byte (20_memory.md R82, R88). So this type has no constructor (log entry 20). -/
inductive Fault : Type
  deriving DecidableEq, Repr

/-- `refuse(reason)` of 60_exceptions.md R384: the model gives the transaction no meaning. Every one is safe: nothing is
proved through a refusal. -/
inductive Refusal
  /-- Raised by an arm of exec whose instruction has no meaning yet. Safe. -/
  | notModelled (mnemonic : String)
  /-- Raised by the meanings of RESERVED.A to RESERVED.F (R384(a), 30_encoding.md R108(a)). Safe. -/
  | reservedKind (kind : BitVec 4)
  /-- Raised by the decoder on a non-zero must-be-0 field (R384(a), 30_encoding.md R108(b)). Safe. -/
  | mustBeZero
  /-- Raised by the decoder, and by INIT's meaning, on audio = 3 (R384(a), 30_encoding.md R108(c)). Safe. -/
  | audioReserved
  /-- Raised by INIT on a MAPPER_ID that selects no variant (R384(b), 46_lifecycle.md R361). Safe. -/
  | unsupportedMapper (id : Byte)
  /-- Raised by every transaction but INIT while active = NONE (R384(c), 46_lifecycle.md R363). Safe. -/
  | notInitialised
  /-- Raised by LOAD on a short or out-of-range stream (R384(d), 46_lifecycle.md R369, R371). Safe. -/
  | badStream
  deriving DecidableEq, Repr

/-- The outcome of a transaction. -/
abbrev Result := Host.Outcome State Fault Refusal

/-- The pre-INIT state (46_lifecycle.md R363, R364): active = NONE. The spec gives no other power-on value (R401); the
registers hold their reset columns (log entry 1). -/
def State.reset : State where
  args := openArgs
  cart := noCartridge
  active := .none
  bandai := bandaiReset .vertical
  mmc := mmcReset .vertical
  sunsoft := sunsoftReset .vertical
  view := noView
  sq0 := squareReset openArgs
  sq1 := squareReset openArgs
  da := 0
  saw := sawReset openArgs
  line := lineFill
  prgRom := []
  chrRom := []
  ciram := []
  stream := []
  pos := 0
  out := {}
  inputs := []
  freeCount := 0

end Sys2Proof.Machine
end

