-- ==== Sys2Proof/Machine/Ops.lean ====
section
/-! DEFINITION. The named operations (00_scope.md R8): memory reads and writes, the page counts and masks, the pushes to
the bus view, the three reads through the view, the interrupt edge, and what every meaning shares (who is addressed, and
what is refused before INIT). -/

namespace Sys2Proof.Machine

/-! ## Memory -/

/-- What an unlisted byte reads as (log entry 9; 95_test_vectors.md: "ROM and CIRAM bytes not listed are 0"). -/
def Memory.unlisted : Byte := 0

/-- MemRead(space, addr, 1) (R8). -/
def Memory.read (m : Memory) (a : Nat) : Byte :=
  match m with
  | [] => Memory.unlisted
  | (b, v) :: rest => if a = b then v else Memory.read rest a

/-- The memory without the entry at `a`. -/
def Memory.erase (m : Memory) (a : Nat) : Memory := m.filter fun c => decide (c.1 ≠ a)

/-- The memory with an entry put in its place by rising address. -/
def Memory.insert (m : Memory) (a : Nat) (v : Byte) : Memory :=
  match m with
  | [] => [(a, v)]
  | (b, w) :: rest => if a < b then (a, v) :: (b, w) :: rest else (b, w) :: Memory.insert rest a v

/-- One byte written. Writing what an unlisted byte reads as removes the entry. -/
def Memory.write (m : Memory) (a : Nat) (v : Byte) : Memory :=
  if v = Memory.unlisted then m.erase a else (m.erase a).insert a v

/-- The canonical form: addresses strictly rising, no entry equal to what an unlisted byte reads as. -/
def Memory.wf (m : Memory) : Bool :=
  match m with
  | [] => true
  | (a, v) :: rest => decide (v ≠ Memory.unlisted) && rest.all (fun c => decide (a < c.1)) && Memory.wf rest

/-! ## Page counts and masks (10_state.md R21, R22) -/

/-- prg16. -/
def Cartridge.prg16 (c : Cartridge) : Nat := c.prgPages.toNat

/-- prg8. -/
def Cartridge.prg8 (c : Cartridge) : Nat := 2 * c.prgPages.toNat

/-- chr4. -/
def Cartridge.chr4 (c : Cartridge) : Nat := 2 * c.chrPages.toNat

/-- chr2. -/
def Cartridge.chr2 (c : Cartridge) : Nat := 4 * c.chrPages.toNat

/-- chr1. -/
def Cartridge.chr1 (c : Cartridge) : Nat := 8 * c.chrPages.toNat

/-- `p & m_u` for a unit of which the cartridge has `count` pages: m_u = count − 1. -/
def maskPage (count : Nat) (p : Byte) : Nat := p.toNat &&& (count - 1)

/-! ## Pushes to the bus view (00_scope.md R8) -/

/-- SelectPrg8(slot, page). -/
def selectPrg8 (slot : Fin 4) (page : Nat) (b : BusView) : BusView :=
  { b with prgSlot := b.prgSlot.set slot.val page slot.isLt }

/-- CPU read slot 2w + j of the 16 KiB window w (0 for $8000, 1 for $C000). -/
def prg16Slot (w j : Fin 2) : Fin 4 := ⟨2 * w.val + j.val, by omega⟩

/-- SelectPrg16(w, page): SelectPrg8(2w, 2p); SelectPrg8(2w + 1, 2p + 1). Every port selects in window 0. -/
def selectPrg16 (w : Fin 2) (page : Nat) (b : BusView) : BusView :=
  selectPrg8 (prg16Slot w 1) (2 * page + 1) (selectPrg8 (prg16Slot w 0) (2 * page) b)

/-- SelectChr1(block, page). -/
def selectChr1 (block : Fin 8) (page : Nat) (b : BusView) : BusView :=
  { b with chrSlot := b.chrSlot.set block.val page block.isLt }

/-- SelectNt(t, src). -/
def selectNt (t : Fin 4) (src : NtSource) (b : BusView) : BusView :=
  { b with ntSrc := b.ntSrc.set t.val src t.isLt }

/-- SelectNt on all four name tables. -/
def selectNts (src : Vector NtSource 4) (b : BusView) : BusView :=
  selectNt 3 src[3] (selectNt 2 src[2] (selectNt 1 src[1] (selectNt 0 src[0] b)))

/-- SetMirroring(m) (10_state.md R32). -/
def setMirroring (m : MirrorMode) (b : BusView) : BusView := selectNts (mirrorTable m) b

/-- Pattern block 2w + j of the 2 KiB CHR window w (42_sunsoft.md R211). -/
def pairBlock (w : Fin 4) (j : Fin 2) : Fin 8 := ⟨2 * w.val + j.val, by omega⟩

/-- A 2 KiB CHR page q in window w: SelectChr1(2w, 2q); SelectChr1(2w + 1, 2q + 1) (R211). -/
def selectChr2 (w : Fin 4) (q : Nat) (b : BusView) : BusView :=
  selectChr1 (pairBlock w 1) (2 * q + 1) (selectChr1 (pairBlock w 0) (2 * q) b)

/-- Pattern block 4h + k of the pattern half h (41_mmc2_mmc4.md R184). -/
def halfBlock (h : Bool) (k : Fin 4) : Fin 8 := ⟨(if h then 4 else 0) + k.val, by split <;> omega⟩

/-- A 4 KiB CHR page q in half h: four 1 KiB selections (R184). -/
def selectChr4 (h : Bool) (q : Nat) (b : BusView) : BusView :=
  selectChr1 (halfBlock h 3) (4 * q + 3) (selectChr1 (halfBlock h 2) (4 * q + 2)
    (selectChr1 (halfBlock h 1) (4 * q + 1) (selectChr1 (halfBlock h 0) (4 * q) b)))

/-! ## The pushed views (40 R140, 41 R185, 42 R215, R220) -/

/-- The register that half h's latch selects (R184). -/
def latchedChr (h : Bool) (r : MmcRegs) : Byte :=
  if h then (if r.latch1 = 0xFD then r.chrFd1 else r.chrFe1)
  else (if r.latch0 = 0xFD then r.chrFd0 else r.chrFe0)

/-- PushChrHalf(h) (R184). -/
def pushChrHalf (h : Bool) (c : Cartridge) (r : MmcRegs) (b : BusView) : BusView :=
  selectChr4 h (maskPage c.chr4 (latchedChr h r)) b

/-- The 1 KiB CHR page of a SUNSOFT name-table bank: (v | 0x80) & m_chr1 (R215). -/
def ntBankPage (c : Cartridge) (v : Byte) : Nat := maskPage c.chr1 (v ||| 0x80)

/-- What PushNt() selects (R215). -/
def sunsoftNts (c : Cartridge) (r : SunsoftRegs) : Vector NtSource 4 :=
  let m := modeOf (low2 r.ntctl)
  if r.ntctl.getLsbD 4 then
    let n0 := NtSource.chr (ntBankPage c r.nt[0])
    let n1 := NtSource.chr (ntBankPage c r.nt[1])
    match m with
    | .vertical => #v[n0, n1, n0, n1]
    | .horizontal => #v[n0, n0, n1, n1]
    | .singleLow => #v[n0, n0, n0, n0]
    | .singleHigh => #v[n1, n1, n1, n1]
  else mirrorTable m

/-- PushNt() (R215). -/
def pushNt (c : Cartridge) (r : SunsoftRegs) (b : BusView) : BusView := selectNts (sunsoftNts c r) b

/-- prg_slot with a 16 KiB page low and the last 16 KiB page high (R140, R185, R220). -/
def prgLow16 (c : Cartridge) (v : Byte) : Vector Nat 4 :=
  let p := maskPage c.prg16 v
  #v[2 * p, 2 * p + 1, c.prg8 - 2, c.prg8 - 1]

/-- View(BANDAI) (R140). -/
def bandaiView (c : Cartridge) (r : BandaiRegs) : BusView where
  prgSlot := prgLow16 c r.prg
  chrSlot := r.chr.map (maskPage c.chr1)
  ntSrc := mirrorTable r.mirror

/-- The eight pages of two 4 KiB pages q0 and q1. -/
def chrHalves (q0 q1 : Nat) : Vector Nat 8 :=
  #v[4 * q0, 4 * q0 + 1, 4 * q0 + 2, 4 * q0 + 3, 4 * q1, 4 * q1 + 1, 4 * q1 + 2, 4 * q1 + 3]

/-- chr_slot of MMC2 and MMC4 (R185). -/
def mmcChrSlots (c : Cartridge) (r : MmcRegs) : Vector Nat 8 :=
  chrHalves (maskPage c.chr4 (latchedChr false r)) (maskPage c.chr4 (latchedChr true r))

/-- View(MMC2) (R185). -/
def mmc2View (c : Cartridge) (r : MmcRegs) : BusView where
  prgSlot := #v[maskPage c.prg8 r.prg, c.prg8 - 3, c.prg8 - 2, c.prg8 - 1]
  chrSlot := mmcChrSlots c r
  ntSrc := mirrorTable r.mirror

/-- View(MMC4) (R185). -/
def mmc4View (c : Cartridge) (r : MmcRegs) : BusView where
  prgSlot := prgLow16 c r.prg
  chrSlot := mmcChrSlots c r
  ntSrc := mirrorTable r.mirror

/-- The two 1 KiB pages of SUNSOFT's 2 KiB window value `v` (R220). -/
def chrPair (c : Cartridge) (v : Byte) (j : Nat) : Nat := 2 * maskPage c.chr2 v + j

/-- View(SUNSOFT) (R220). -/
def sunsoftView (c : Cartridge) (r : SunsoftRegs) : BusView where
  prgSlot := prgLow16 c r.prg
  chrSlot := #v[chrPair c r.chr[0] 0, chrPair c r.chr[0] 1, chrPair c r.chr[1] 0, chrPair c r.chr[1] 1,
    chrPair c r.chr[2] 0, chrPair c r.chr[2] 1, chrPair c r.chr[3] 0, chrPair c r.chr[3] 1]
  ntSrc := sunsoftNts c r

/-- View(active, registers) (10_state.md R30). With no active mapper nothing is pushed. -/
def viewOf (s : State) : BusView :=
  match s.active with
  | .none => s.view
  | .bandai => bandaiView s.cart s.bandai
  | .mmc2 => mmc2View s.cart s.mmc
  | .mmc4 => mmc4View s.cart s.mmc
  | .sunsoft => sunsoftView s.cart s.sunsoft

/-! ## Reads through the view (20_memory.md R72, R74, R76) -/

/-- PrgRead(A) for A in $8000 to $FFFF (R72). -/
def prgRead (s : State) (a : Addr) : Byte :=
  Memory.read s.prgRom (s.view.prgSlot[(prgWindow a).toNat] * 8192 + (prgOffset a).toNat)

/-- What a CPU read of A returns: PRG ROM above $8000; nothing below, where the block serves no read (R72). -/
def cpuRead (s : State) (a : Addr) : Option Byte :=
  if 0x8000 ≤ a.toNat then some (prgRead s a) else none

/-- PatRead(P), which moves no latch (R74). -/
def patRead (s : State) (p : PpuAddr) : Byte :=
  Memory.read s.chrRom (s.view.chrSlot[(ppuBlock p).toNat] * 1024 + (ppuOffset p).toNat)

/-- NtRead(t, off) (R76). -/
def ntRead (s : State) (t : BitVec 2) (off : BitVec 10) : Byte :=
  match s.view.ntSrc[t.toNat] with
  | .ciram k => Memory.read s.ciram (k.val * 1024 + off.toNat)
  | .chr p => Memory.read s.chrRom (p * 1024 + off.toNat)

/-- MemWrite(LINE, x, v), for 0 ≤ x ≤ 255 (R78); no pixel lies beyond. -/
def writePixel (line : Vector Byte 256) (x : Nat) (v : Byte) : Vector Byte 256 :=
  if h : x < 256 then line.set x v h else line

/-! ## What every meaning shares -/

/-- What decides how a bus write is decoded in this state (30_encoding.md R109). -/
def State.selection (s : State) : Selection := ⟨s.active, s.cart.audioOption⟩

/-- Every transaction's report starts empty (00_scope.md R9, 60_exceptions.md R385). -/
def State.clearReport (s : State) : State := { s with out := {} }

/-- `raise IRQ` (60_exceptions.md R382): one edge, in the report of the transaction that raises it. It is the block's only
event toward the CPU; no pc, status or mode changes (R386). -/
def State.raiseIrq (s : State) : State := { s with out := { s.out with irqEdge := true } }

/-- The pre-INIT check of every transaction but INIT (46_lifecycle.md R363, 60_exceptions.md R384(c)). -/
def whenReady (s : State) (f : State → Result) : Result :=
  if s.active = .none then .refused .notInitialised else f s.clearReport

/-- A transaction that only changes the state. -/
def ready (s : State) (f : State → State) : Result := whenReady s fun t => .next (f t)

/-- A bus write as a mapper receives it: if one of `ms` is active it has its effect. Any other mapper does not decode the
write as this register, so as this register's write it changes nothing (30_encoding.md R109; log entry 5). -/
def onMapper (ms : List Active) (s : State) (f : State → State) : Result :=
  ready s fun t => if t.active ∈ ms then f t else t

/-- A bus write as an audio module receives it (30_encoding.md R109; log entry 5). -/
def onAudio (o : AudioOption) (s : State) (f : State → State) : Result :=
  ready s fun t => if t.cart.audioOption = o then f t else t

/-- A transaction after another, when the first answered a next state. -/
def andThen (r : Result) (f : State → Result) : Result :=
  match r with
  | .next s => f s
  | .fault e => .fault e
  | .refused e => .refused e

end Sys2Proof.Machine
end

