-- ==== Sys2Proof/Machine/Bandai.lean ====
section
/-! DEFINITION. The BANDAI port writes (40_bandai.md). -/

namespace Sys2Proof.Machine

/-! The ports' effects. -/

/-- Ports 0 to 7: b_chr[n] ← V; SelectChr1(n, V & m_chr1) (R131). -/
def bandaiChr (n : Fin 8) (v : Byte) (s : State) : State :=
  { s with
    bandai := { s.bandai with chr := s.bandai.chr.set n.val v n.isLt }
    view := selectChr1 n (maskPage s.cart.chr1 v) s.view }

/-- Port 8: b_prg ← V and the 16 KiB page at $8000 (R132). -/
def bandaiPrg (v : Byte) (s : State) : State :=
  { s with
    bandai := { s.bandai with prg := v }
    view := selectPrg16 0 (maskPage s.cart.prg16 v) s.view }

/-- Port 9: b_mirror ← mode(V[1:0]); SetMirroring (R133). -/
def bandaiMirror (v : Byte) (s : State) : State :=
  { s with
    bandai := { s.bandai with mirror := modeOf (low2 v) }
    view := setMirroring (modeOf (low2 v)) s.view }

/-- Port 10: irq_enable ← V[0]; irq_counter ← irq_latch, whatever V[0] is (R134). -/
def bandaiIrqctl (v : Byte) (s : State) : State :=
  { s with bandai := { s.bandai with irqEnable := v.getLsbD 0, irqCounter := s.bandai.irqLatch } }

/-- Port 11: irq_latch[7:0] ← V (R135). -/
def bandaiLatchlo (v : Byte) (s : State) : State :=
  { s with bandai := { s.bandai with irqLatch := s.bandai.irqLatch.extractLsb' 8 8 ++ v } }

/-- Port 12: irq_latch[15:8] ← V (R136). -/
def bandaiLatchhi (v : Byte) (s : State) : State :=
  { s with bandai := { s.bandai with irqLatch := v ++ s.bandai.irqLatch.extractLsb' 0 8 } }

/-! The meanings. The address only selected the port (R130). -/

/-- BANDAI.CHR0 (R131). -/
def execBandaiChr0 (_a : Addr) (v : Byte) (s : State) : Result := onMapper [.bandai] s (bandaiChr 0 v)

/-- BANDAI.CHR1 (R131). -/
def execBandaiChr1 (_a : Addr) (v : Byte) (s : State) : Result := onMapper [.bandai] s (bandaiChr 1 v)

/-- BANDAI.CHR2 (R131). -/
def execBandaiChr2 (_a : Addr) (v : Byte) (s : State) : Result := onMapper [.bandai] s (bandaiChr 2 v)

/-- BANDAI.CHR3 (R131). -/
def execBandaiChr3 (_a : Addr) (v : Byte) (s : State) : Result := onMapper [.bandai] s (bandaiChr 3 v)

/-- BANDAI.CHR4 (R131). -/
def execBandaiChr4 (_a : Addr) (v : Byte) (s : State) : Result := onMapper [.bandai] s (bandaiChr 4 v)

/-- BANDAI.CHR5 (R131). -/
def execBandaiChr5 (_a : Addr) (v : Byte) (s : State) : Result := onMapper [.bandai] s (bandaiChr 5 v)

/-- BANDAI.CHR6 (R131). -/
def execBandaiChr6 (_a : Addr) (v : Byte) (s : State) : Result := onMapper [.bandai] s (bandaiChr 6 v)

/-- BANDAI.CHR7 (R131). -/
def execBandaiChr7 (_a : Addr) (v : Byte) (s : State) : Result := onMapper [.bandai] s (bandaiChr 7 v)

/-- BANDAI.PRG (R132). -/
def execBandaiPrg (_a : Addr) (v : Byte) (s : State) : Result := onMapper [.bandai] s (bandaiPrg v)

/-- BANDAI.MIRROR (R133). -/
def execBandaiMirror (_a : Addr) (v : Byte) (s : State) : Result := onMapper [.bandai] s (bandaiMirror v)

/-- BANDAI.IRQCTL (R134). -/
def execBandaiIrqctl (_a : Addr) (v : Byte) (s : State) : Result := onMapper [.bandai] s (bandaiIrqctl v)

/-- BANDAI.LATCHLO (R135). -/
def execBandaiLatchlo (_a : Addr) (v : Byte) (s : State) : Result := onMapper [.bandai] s (bandaiLatchlo v)

/-- BANDAI.LATCHHI (R136). -/
def execBandaiLatchhi (_a : Addr) (v : Byte) (s : State) : Result := onMapper [.bandai] s (bandaiLatchhi v)

/-- BANDAI.PORT13 (R137: accepted, no effect). -/
def execBandaiPort13 (_a : Addr) (_v : Byte) (s : State) : Result := onMapper [.bandai] s id

/-- BANDAI.PORT14 (R138: undefined, silently ignored). -/
def execBandaiPort14 (_a : Addr) (_v : Byte) (s : State) : Result := onMapper [.bandai] s id

/-- BANDAI.PORT15 (R138: undefined, silently ignored). -/
def execBandaiPort15 (_a : Addr) (_v : Byte) (s : State) : Result := onMapper [.bandai] s id

end Sys2Proof.Machine
end

