-- ==== Sys2Proof/Machine/Irq.lean ====
section
/-! DEFINITION. The commit and predict hooks (43_irq.md). BANDAI is the only interrupt-capable variant (40_bandai.md
R142). -/

namespace Sys2Proof.Machine

/-- The commit (R240): the counter's registers, and one edge when it fires. -/
def commit (s : State) : State :=
  let t := { s with bandai := commitRegs s.args.pseudoClocks s.bandai }
  if commitFires s.args.pseudoClocks s.bandai then t.raiseIrq else t

/-- PREDICT's answer in `s` (R242). -/
def predictAnswer (s : State) : Answer :=
  if s.active ≠ .bandai ∨ s.bandai.irqEnable = false then .noTrigger
  else predictCopy s.args.pseudoClocks s.bandai

/-- SCANLINE_START (R240): nothing on a variant with no interrupt (R244). The line is ignored (R246). -/
def execScanlineStart (_line : BitVec 9) (s : State) : Result :=
  ready s fun t => if t.active = .bandai then commit t else t

/-- PREDICT (R242): an answer and no other change. The line is ignored (R246). -/
def execPredict (_line : BitVec 9) (s : State) : Result :=
  ready s fun t => { t with out := { t.out with predict := some (predictAnswer t) } }

end Sys2Proof.Machine
end

