-- ==== Sys2Proof/Machine/SaveFormat.lean ====
section
/-! DEFINITION. The payloads of SAVE and LOAD (46_lifecycle.md R368, R369, R371). Multi-byte fields are little-endian
(20_memory.md R81). -/

namespace Sys2Proof.Machine

/-! ## Integers -/

/-- The `k` low bytes of `n`, least significant first. -/
def leBytes (k n : Nat) : List Byte :=
  match k with
  | 0 => []
  | k + 1 => BitVec.ofNat 8 n :: leBytes k (n / 256)

/-- The integer of a list of bytes, least significant first. -/
def fromLe (l : List Byte) : Nat :=
  match l with
  | [] => 0
  | b :: rest => b.toNat + 256 * fromLe rest

/-- One bit as a byte. -/
def bitByte (b : Bool) : Byte := if b then 1 else 0

/-- Byte `i` of a payload. -/
def byteAt (l : List Byte) (i : Nat) : Byte := l.getD i 0

/-- The `k`-byte integer at byte `i` of a payload. -/
def natAt (l : List Byte) (i k : Nat) : Nat := fromLe ((l.drop i).take k)

/-! ## What SAVE writes (R368) -/

/-- BANDAI, 15 bytes. -/
def bandaiBytes (r : BandaiRegs) : List Byte :=
  r.chr.toList ++ [r.prg, (codeOf r.mirror).zeroExtend 8, bitByte r.irqEnable] ++
    leBytes 2 r.irqCounter.toNat ++ leBytes 2 r.irqLatch.toNat

/-- MMC2 and MMC4, 8 bytes. -/
def mmcBytes (r : MmcRegs) : List Byte :=
  [r.prg, r.chrFd0, r.chrFe0, r.chrFd1, r.chrFe1, r.latch0, r.latch1, (codeOf r.mirror).zeroExtend 8]

/-- SUNSOFT, 8 bytes. -/
def sunsoftBytes (r : SunsoftRegs) : List Byte := r.chr.toList ++ r.nt.toList ++ [r.ntctl, r.prg]

/-- A square channel, 44 bytes. -/
def squareBytes (ch : SquareChannel) : List Byte :=
  ch.regs.toList ++
    [ch.update.zeroExtend 8, bitByte ch.key, bitByte ch.enabled, ch.length, ch.envVol.zeroExtend 8,
      ch.dutyPos.zeroExtend 8] ++
    leBytes 2 ch.release.toNat ++ leBytes 8 ch.envPhase ++ leBytes 8 ch.lenPhase ++ leBytes 8 ch.sweepPhase ++
    leBytes 8 ch.wavePhase

/-- A saw channel, 17 bytes. -/
def sawBytes (ch : SawChannel) : List Byte :=
  ch.regs.toList ++ [ch.update.zeroExtend 8, bitByte ch.key, ch.stepPos.zeroExtend 8, ch.acc] ++
    leBytes 2 ch.release.toNat ++ leBytes 8 ch.wavePhase

/-- The mapper payload of the active variant. -/
def mapperPayload (s : State) : List Byte :=
  match s.active with
  | .none => []
  | .bandai => bandaiBytes s.bandai
  | .mmc2 => mmcBytes s.mmc
  | .mmc4 => mmcBytes s.mmc
  | .sunsoft => sunsoftBytes s.sunsoft

/-- The audio payload of AUDIO_OPTION. -/
def audioPayload (s : State) : List Byte :=
  match s.cart.audioOption with
  | .none => []
  | .square => squareBytes s.sq0 ++ squareBytes s.sq1 ++ [s.da]
  | .saw => sawBytes s.saw

/-- The whole payload: the mapper's, then the audio module's. -/
def savePayload (s : State) : List Byte := mapperPayload s ++ audioPayload s

/-- The length of the mapper payload. -/
def mapperLen (m : Active) : Nat :=
  match m with
  | .none => 0
  | .bandai => 15
  | .mmc2 => 8
  | .mmc4 => 8
  | .sunsoft => 8

/-- The length of the audio payload. -/
def audioLen (o : AudioOption) : Nat :=
  match o with
  | .none => 0
  | .square => 89
  | .saw => 17

/-! ## What LOAD reads (R369), refusing fields out of range (R371) -/

/-- BANDAI. -/
def bandaiOfBytes (l : List Byte) : Option BandaiRegs :=
  if (byteAt l 9).toNat ≤ 3 ∧ (byteAt l 10).toNat ≤ 1 then
    some {
      chr := #v[byteAt l 0, byteAt l 1, byteAt l 2, byteAt l 3, byteAt l 4, byteAt l 5, byteAt l 6, byteAt l 7]
      prg := byteAt l 8
      mirror := modeOf (low2 (byteAt l 9))
      irqEnable := (byteAt l 10).getLsbD 0
      irqCounter := BitVec.ofNat 16 (natAt l 11 2)
      irqLatch := BitVec.ofNat 16 (natAt l 13 2) }
  else none

/-- MMC2 and MMC4. -/
def mmcOfBytes (l : List Byte) : Option MmcRegs :=
  if isTrigger (byteAt l 5) && isTrigger (byteAt l 6) && decide ((byteAt l 7).toNat ≤ 3) then
    some {
      prg := byteAt l 0
      chrFd0 := byteAt l 1
      chrFe0 := byteAt l 2
      chrFd1 := byteAt l 3
      chrFe1 := byteAt l 4
      mirror := modeOf (low2 (byteAt l 7))
      latch0 := byteAt l 5
      latch1 := byteAt l 6 }
  else none

/-- SUNSOFT: every value is legal. -/
def sunsoftOfBytes (l : List Byte) : SunsoftRegs where
  chr := #v[byteAt l 0, byteAt l 1, byteAt l 2, byteAt l 3]
  nt := #v[byteAt l 4, byteAt l 5]
  ntctl := byteAt l 6
  prg := byteAt l 7

/-- A square channel. Its derived record is decoded again; no key-on or key-off happens. -/
def squareOfBytes (args : ModelArgs) (l : List Byte) : Option SquareChannel :=
  let regs : Vector Byte 4 := #v[byteAt l 0, byteAt l 1, byteAt l 2, byteAt l 3]
  if (byteAt l 4).toNat ≤ 15 ∧ (byteAt l 5).toNat ≤ 1 ∧ (byteAt l 6).toNat ≤ 1 ∧ (byteAt l 8).toNat ≤ 15 ∧
      (byteAt l 9).toNat ≤ 7 then
    some {
      regs := regs
      update := (byteAt l 4).extractLsb' 0 4
      enabled := (byteAt l 6).getLsbD 0
      key := (byteAt l 5).getLsbD 0
      length := byteAt l 7
      envVol := (byteAt l 8).extractLsb' 0 4
      dutyPos := (byteAt l 9).extractLsb' 0 3
      release := BitVec.ofNat 16 (natAt l 10 2)
      envPhase := natAt l 12 8
      lenPhase := natAt l 20 8
      sweepPhase := natAt l 28 8
      wavePhase := natAt l 36 8
      d := squareDecode args regs }
  else none

/-- A saw channel. Its derived record is decoded again. -/
def sawOfBytes (args : ModelArgs) (l : List Byte) : Option SawChannel :=
  let regs : Vector Byte 3 := #v[byteAt l 0, byteAt l 1, byteAt l 2]
  if (byteAt l 3).toNat ≤ 7 ∧ (byteAt l 4).toNat ≤ 1 ∧ (byteAt l 5).toNat ≤ 13 then
    some {
      regs := regs
      update := (byteAt l 3).extractLsb' 0 3
      key := (byteAt l 4).getLsbD 0
      stepPos := (byteAt l 5).extractLsb' 0 4
      acc := byteAt l 6
      release := BitVec.ofNat 16 (natAt l 7 2)
      wavePhase := natAt l 9 8
      d := sawDecode args regs }
  else none

/-- The mapper's part of a payload written into its registers. -/
def loadMapper (l : List Byte) (s : State) : Option State :=
  match s.active with
  | .none => some s
  | .bandai => (bandaiOfBytes l).map fun r => { s with bandai := r }
  | .mmc2 => (mmcOfBytes l).map fun r => { s with mmc := r }
  | .mmc4 => (mmcOfBytes l).map fun r => { s with mmc := r }
  | .sunsoft => some { s with sunsoft := sunsoftOfBytes l }

/-- The audio module's part of a payload written into its channels. -/
def loadAudio (l : List Byte) (s : State) : Option State :=
  match s.cart.audioOption with
  | .none => some s
  | .square =>
    match squareOfBytes s.args l, squareOfBytes s.args (l.drop 44) with
    | some c0, some c1 => some { s with sq0 := c0, sq1 := c1, da := byteAt l 88 }
    | _, _ => none
  | .saw => (sawOfBytes s.args l).map fun ch => { s with saw := ch }

/-- The length of the payload the state's configuration reads and writes. -/
def payloadLen (s : State) : Nat := mapperLen s.active + audioLen s.cart.audioOption

/-- LOAD's effect (R369): none if the stream ends early or a field is out of range. The bus view is pushed again. -/
def loadBlock (s : State) : Option State :=
  if s.stream.length < payloadLen s then none
  else
    match loadMapper s.stream s with
    | none => none
    | some t =>
      match loadAudio (s.stream.drop (mapperLen s.active)) t with
      | none => none
      | some u => some { u with view := viewOf u, stream := s.stream.drop (payloadLen s) }

/-- SAVE's effect (R368): the payload appended to the stream. -/
def saveBlock (s : State) : State :=
  { s with stream := s.stream ++ savePayload s, out := { s.out with saved := savePayload s } }

end Sys2Proof.Machine
end

