-- ==== Sys2Proof/Machine/Lifecycle.lean ====
section
/-! DEFINITION. INIT, RESET, SAVE and LOAD (46_lifecycle.md). -/

namespace Sys2Proof.Machine

/-! ## INIT -/

/-- The variant of a MAPPER_ID (00_scope.md R2), none where no variant has it (46_lifecycle.md R361). -/
def variantOf (id : Byte) : Option Active :=
  if id = 16 then some .bandai
  else if id = 9 then some .mmc2
  else if id = 10 then some .mmc4
  else if id = 68 then some .sunsoft
  else none

/-- n = 2^k for some k (R360); a byte has k below 8. -/
def isPow2 (n : Byte) : Bool := (List.range 8).any fun k => n.toNat == 2 ^ k

/-- min_prg: 2 on MMC2, 1 elsewhere (R360). -/
def minPrg (m : Active) : Nat := if m = .mmc2 then 2 else 1

/-- AUDIO_OPTION of INIT's field; 3 is reserved (30_encoding.md R107). -/
def audioOf (c : BitVec 2) : Option AudioOption :=
  match c.toNat with
  | 0 => some .none
  | 1 => some .square
  | 2 => some .saw
  | _ => none

/-- The result of INIT's page checks, PRG first, then CHR (R360). -/
def pageCheck (m : Active) (prg chr : Byte) : InitResult :=
  if prg.toNat < minPrg m then .insufficient
  else if isPow2 prg = false then .unsupported
  else if chr.toNat < 1 then .insufficient
  else if isPow2 chr = false then .unsupported
  else .ok

/-- Every register file, channel and DA register at its reset column, for the configuration of `s` (10_state.md R25 to
R27, R39 to R41). -/
def resetAll (s : State) : State :=
  { s with
    bandai := bandaiReset s.cart.headerMirroring
    mmc := mmcReset s.cart.headerMirroring
    sunsoft := sunsoftReset s.cart.headerMirroring
    sq0 := squareReset s.args
    sq1 := squareReset s.args
    da := 0
    saw := sawReset s.args }

/-- The bus view pushed from the registers (10_state.md R30). -/
def pushView (s : State) : State := { s with view := viewOf s }

/-- A cartridge claimed: the configuration, the variant, and the reset state of everything (R360, R365). DESIGN CHOICE: LINE,
which R400 leaves unspecified until the next RENDER_LINE, keeps what it held (log entry 7). DESIGN CHOICE: prgRom and chrRom
keep the image they held, since R42 and R73 do not say how a later cartridge's image arrives (log entry 9). -/
def claim (c : Cartridge) (m : Active) (s : State) : State :=
  pushView (resetAll { s with cart := c, active := m })

/-- `answer code`. -/
def answerInit (r : InitResult) (s : State) : State := { s with out := { s.out with initResult := some r } }

/-- INIT (R360). A failure leaves active = NONE and reports its code (R380); an unknown id is refused (R361). -/
def execInit (id prg chr : Byte) (mirror audio : BitVec 2) (s : State) : Result :=
  match audioOf audio with
  | none => .refused .audioReserved
  | some o =>
    match variantOf id with
    | none => .refused (.unsupportedMapper id)
    | some m =>
      match pageCheck m prg chr with
      | .ok =>
        let c : Cartridge := ⟨id, prg, chr, modeOf mirror, o⟩
        .next (answerInit .ok (claim c m s.clearReport))
      | r => .next (answerInit r { s.clearReport with active := .none })

/-! ## RESET (R366) -/

/-- The active variant's registers at their reset column. -/
def resetMapper (s : State) : State :=
  match s.active with
  | .none => s
  | .bandai => { s with bandai := bandaiReset s.cart.headerMirroring }
  | .mmc2 => { s with mmc := mmcReset s.cart.headerMirroring }
  | .mmc4 => { s with mmc := mmcReset s.cart.headerMirroring }
  | .sunsoft => { s with sunsoft := sunsoftReset s.cart.headerMirroring }

/-- The audio module's state at reset. -/
def resetAudio (s : State) : State :=
  match s.cart.audioOption with
  | .none => s
  | .square => { s with sq0 := squareReset s.args, sq1 := squareReset s.args, da := 0 }
  | .saw => { s with saw := sawReset s.args }

/-- RESET's effect: registers, view, audio. The configuration is unchanged. -/
def resetBlock (s : State) : State := resetAudio (pushView (resetMapper s))

/-- RESET (R366). -/
def execReset (s : State) : Result := ready s resetBlock

/-! ## SAVE and LOAD -/

/-- SAVE (R368). -/
def execSave (s : State) : Result := ready s saveBlock

/-- LOAD (R369): a bad stream is refused (R384(d)). -/
def execLoad (s : State) : Result :=
  whenReady s fun t =>
    match loadBlock t with
    | some u => .next u
    | none => .refused .badStream

end Sys2Proof.Machine
end

