-- ==== Sys2Proof/Machine/Mmc.lean ====
section
/-! DEFINITION. The MMC2 and MMC4 window writes and the latch machine (41_mmc2_mmc4.md). -/

namespace Sys2Proof.Machine

/-! The windows' effects. -/

/-- Window $A on MMC2: m_prg ← V; SelectPrg8(0, V & m_prg8) (R171). -/
def mmc2Prg8 (v : Byte) (s : State) : State :=
  { s with
    mmc := { s.mmc with prg := v }
    view := selectPrg8 0 (maskPage s.cart.prg8 v) s.view }

/-- Window $A on MMC4: m_prg ← V and the 16 KiB page at $8000 (R171). -/
def mmc4Prg16 (v : Byte) (s : State) : State :=
  { s with
    mmc := { s.mmc with prg := v }
    view := selectPrg16 0 (maskPage s.cart.prg16 v) s.view }

/-- PushChrHalf(h) from the registers of `s` (R184). -/
def pushHalf (h : Bool) (s : State) : State := { s with view := pushChrHalf h s.cart s.mmc s.view }

/-- Window $B: m_chr_fd0 ← V, pushed if latch0 = $FD (R172). -/
def mmcChrfd0 (v : Byte) (s : State) : State :=
  let t := { s with mmc := { s.mmc with chrFd0 := v } }
  if t.mmc.latch0 = 0xFD then pushHalf false t else t

/-- Window $C: m_chr_fe0 ← V, pushed if latch0 = $FE (R173). -/
def mmcChrfe0 (v : Byte) (s : State) : State :=
  let t := { s with mmc := { s.mmc with chrFe0 := v } }
  if t.mmc.latch0 = 0xFE then pushHalf false t else t

/-- Window $D: m_chr_fd1 ← V, pushed if latch1 = $FD (R174). -/
def mmcChrfd1 (v : Byte) (s : State) : State :=
  let t := { s with mmc := { s.mmc with chrFd1 := v } }
  if t.mmc.latch1 = 0xFD then pushHalf true t else t

/-- Window $E: m_chr_fe1 ← V, pushed if latch1 = $FE (R175). -/
def mmcChrfe1 (v : Byte) (s : State) : State :=
  let t := { s with mmc := { s.mmc with chrFe1 := v } }
  if t.mmc.latch1 = 0xFE then pushHalf true t else t

/-- Window $F: m_mirror ← VERTICAL or HORIZONTAL by V[0]; SetMirroring (R176). -/
def mmcMirror (v : Byte) (s : State) : State :=
  let m := if v.getLsbD 0 then MirrorMode.horizontal else .vertical
  { s with
    mmc := { s.mmc with mirror := m }
    view := setMirroring m s.view }

/-! The latch machine (R180). -/

/-- MMC2 and MMC4 are latch-sensitive, the others are not (R187, 40 R143, 42 R222). -/
def latchSensitive (m : Active) : Bool := m = .mmc2 || m = .mmc4

/-- latch_h ← t. -/
def setLatch (h : Bool) (t : Byte) (r : MmcRegs) : MmcRegs :=
  if h then { r with latch1 := t } else { r with latch0 := t }

/-- PPU_LATCH P (R180): a trigger tile of half h sets latch_h to itself and pushes that half. -/
def latchCheck (p : PpuAddr) (s : State) : State :=
  if latchSensitive s.active && !ppuBeyondPatterns p && isTrigger (ppuTile p) then
    pushHalf (ppuHalf p) { s with mmc := setLatch (ppuHalf p) (ppuTile p) s.mmc }
  else s

/-! The meanings. The address only selected the window (R170). -/

/-- MMCx.UNCLAIMED (R177): $8000 to $9FFF is not claimed. -/
def execMmcUnclaimed (_a : Addr) (_v : Byte) (s : State) : Result := onMapper [.mmc2, .mmc4] s id

/-- MMC2.PRG8 (R171). -/
def execMmc2Prg8 (_a : Addr) (v : Byte) (s : State) : Result := onMapper [.mmc2] s (mmc2Prg8 v)

/-- MMC4.PRG16 (R171). -/
def execMmc4Prg16 (_a : Addr) (v : Byte) (s : State) : Result := onMapper [.mmc4] s (mmc4Prg16 v)

/-- MMCx.CHRFD0 (R172). -/
def execMmcChrfd0 (_a : Addr) (v : Byte) (s : State) : Result := onMapper [.mmc2, .mmc4] s (mmcChrfd0 v)

/-- MMCx.CHRFE0 (R173). -/
def execMmcChrfe0 (_a : Addr) (v : Byte) (s : State) : Result := onMapper [.mmc2, .mmc4] s (mmcChrfe0 v)

/-- MMCx.CHRFD1 (R174). -/
def execMmcChrfd1 (_a : Addr) (v : Byte) (s : State) : Result := onMapper [.mmc2, .mmc4] s (mmcChrfd1 v)

/-- MMCx.CHRFE1 (R175). -/
def execMmcChrfe1 (_a : Addr) (v : Byte) (s : State) : Result := onMapper [.mmc2, .mmc4] s (mmcChrfe1 v)

/-- MMCx.MIRROR (R176). -/
def execMmcMirror (_a : Addr) (v : Byte) (s : State) : Result := onMapper [.mmc2, .mmc4] s (mmcMirror v)

/-- PPU_LATCH (R180). -/
def execPpuLatch (p : PpuAddr) (s : State) : Result := ready s (latchCheck p)

end Sys2Proof.Machine
end

