-- ==== Sys2Proof/Machine/Render.lean ====
section
/-! DEFINITION. The background renderer (44_bg_renderer.md R262). -/

namespace Sys2Proof.Machine

/-! Where tile i of the walk is (R262, R265). `v` is the cursor. -/

/-- col = cx0 + i. -/
def tileCol (v : BitVec 15) (i : Nat) : Nat := (coarseX v).toNat + i

/-- cx = col mod 32. -/
def tileCx (v : BitVec 15) (i : Nat) : Nat := tileCol v i % 32

/-- nt = nv·2 + nh, where nh toggles from column 32 on. -/
def tileNt (v : BitVec 15) (i : Nat) : BitVec 2 :=
  BitVec.ofBool (ntV v) ++ BitVec.ofBool (ntH v ^^ decide (32 ≤ tileCol v i))

/-- 0x3C0 + (cy >> 2)·8 + (cx >> 2): the attribute byte's offset (R266). -/
def attrOffset (cy cx : Nat) : BitVec 10 := BitVec.ofNat 10 (0x3C0 + (cy >>> 2) * 8 + (cx >>> 2))

/-- ((cy & 2) << 1) | (cx & 2): the shift of the tile's quadrant (R266). -/
def attrShift (cy cx : Nat) : Nat := ((cy &&& 2) <<< 1) ||| (cx &&& 2)

/-- (attr >> shift) & 3: the palette group (R266). -/
def attrGroup (attr : Byte) (cy cx : Nat) : Nat := (attr.toNat >>> attrShift cy cx) &&& 3

/-- cy·32 + cx: the tile index's offset (R267). -/
def tileOffset (cy cx : Nat) : BitVec 10 := BitVec.ofNat 10 (cy * 32 + cx)

/-- The colour of pixel p of a row with plane bytes `lo` and `hi` (R268). -/
def pixelColour (lo hi : Byte) (p : Nat) : Nat :=
  ((lo.toNat >>> (7 - p)) &&& 1) ||| (((hi.toNat >>> (7 - p)) &&& 1) <<< 1)

/-- One pixel of tile i (R270 to R273): colour 0, off-screen and clipped pixels are not written. -/
def drawPixel (fineX : BitVec 3) (leftClip : Bool) (i group : Nat) (lo hi : Byte) (line : Vector Byte 256) (p : Nat) :
    Vector Byte 256 :=
  let colour := pixelColour lo hi p
  let x : Int := 8 * (i : Int) + p - fineX.toNat
  if 0 ≤ x ∧ x ≤ 255 ∧ colour ≠ 0 ∧ ¬(leftClip = true ∧ x < 8) then
    writePixel line x.toNat (BitVec.ofNat 8 (group * 4 + colour))
  else line

/-- The eight pixels of tile i. -/
def drawTile (fineX : BitVec 3) (leftClip : Bool) (i group : Nat) (lo hi : Byte) (line : Vector Byte 256) :
    Vector Byte 256 :=
  (List.range 8).foldl (drawPixel fineX leftClip i group lo hi) line

/-- The tile index the walk reads for tile i (R267). -/
def tileIndex (v : BitVec 15) (s : State) (i : Nat) : Byte :=
  ntRead s (tileNt v i) (tileOffset (coarseY v).toNat (tileCx v i))

/-- The palette group of tile i (R266). -/
def tileGroup (v : BitVec 15) (s : State) (i : Nat) : Nat :=
  attrGroup (ntRead s (tileNt v i) (attrOffset (coarseY v).toNat (tileCx v i))) (coarseY v).toNat (tileCx v i)

/-- The latch call of tile i, before its row bytes are read (R269). On a variant that is not latch-sensitive it does
nothing. -/
def tileLatch (v : BitVec 15) (bgSel : Bool) (s : State) (i : Nat) : State :=
  let t := tileIndex v s i
  if latchSensitive s.active && isTrigger t then latchCheck (patternAddr bgSel t) s else s

/-- Tile i of the walk (R262). -/
def renderTile (v : BitVec 15) (fineX : BitVec 3) (bgSel leftClip : Bool) (s : State) (i : Nat) : State :=
  let group := tileGroup v s i
  let pa := patternAddr bgSel (tileIndex v s i)
  let s1 := tileLatch v bgSel s i
  let fy := (fineY v).zeroExtend 14
  let lo := patRead s1 (pa + fy)
  let hi := patRead s1 (pa + 8 + fy)
  { s1 with line := drawTile fineX leftClip i group lo hi s1.line }

/-- The 33 tiles, i = 0 to 32 (R264). -/
def renderTiles (v : BitVec 15) (fineX : BitVec 3) (bgSel leftClip : Bool) (s : State) : State :=
  (List.range 33).foldl (renderTile v fineX bgSel leftClip) s

/-- The unspecified LINE of the `n`-th failed size check (R277): free values (log entry 7). -/
def placeholderLine (n : Nat) : Vector Byte 256 := Vector.ofFn fun x : Fin 256 => Config.placeholder n x.val

/-- RENDER_LINE (R262): the placeholder on a failed size check (R277), the fill alone with the background off (R276), else
the fill and the walk. -/
def renderLine (v : BitVec 15) (fineX : BitVec 3) (bgSel leftClip bgEnabled widthOk : Bool) (s : State) : State :=
  if widthOk then
    let filled := { s with line := lineFill }
    if bgEnabled then renderTiles v fineX bgSel leftClip filled else filled
  else { s with line := placeholderLine s.freeCount, freeCount := s.freeCount + 1 }

/-- RENDER_LINE (R262). -/
def execRenderLine (v : BitVec 15) (fineX : BitVec 3) (bgSel leftClip bgEnabled widthOk : Bool) (s : State) : Result :=
  ready s (renderLine v fineX bgSel leftClip bgEnabled widthOk)

end Sys2Proof.Machine
end

