-- ==== Sys2Proof/Machine/Reserved.lean ====
section
/-! DEFINITION. The reserved kinds 0xA to 0xF: refused, initialised or not (30_encoding.md R108(a), 60_exceptions.md
R384(a), R385). -/

namespace Sys2Proof.Machine

/-- RESERVED.A (R108): no source gives it a meaning. -/
def execReservedA (_rest : BitVec 28) (_s : State) : Result := .refused (.reservedKind 0xA#4)

/-- RESERVED.B (R108): no source gives it a meaning. -/
def execReservedB (_rest : BitVec 28) (_s : State) : Result := .refused (.reservedKind 0xB#4)

/-- RESERVED.C (R108): no source gives it a meaning. -/
def execReservedC (_rest : BitVec 28) (_s : State) : Result := .refused (.reservedKind 0xC#4)

/-- RESERVED.D (R108): no source gives it a meaning. -/
def execReservedD (_rest : BitVec 28) (_s : State) : Result := .refused (.reservedKind 0xD#4)

/-- RESERVED.E (R108): no source gives it a meaning. -/
def execReservedE (_rest : BitVec 28) (_s : State) : Result := .refused (.reservedKind 0xE#4)

/-- RESERVED.F (R108): no source gives it a meaning. -/
def execReservedF (_rest : BitVec 28) (_s : State) : Result := .refused (.reservedKind 0xF#4)

end Sys2Proof.Machine
end

