-- ==== Sys2Proof/Machine/Saw.lean ====
section
/-! DEFINITION. The SAW_CHIP: register writes and the channel's step (45_audio.md R303, R306, R308, R330 to R334). -/

namespace Sys2Proof.Machine

/-- regs[k] ← V and its dirty bit (R308). -/
def sawWrite (k : Fin 3) (v : Byte) (ch : SawChannel) : SawChannel :=
  { ch with regs := ch.regs.set k.val v k.isLt, update := markSaw ch.update k }

/-- Recompute: the decode of R331, then key-on or key-off by the enable bit (R330). -/
def sawRecompute (args : ModelArgs) (ch : SawChannel) : SawChannel :=
  let ch := { ch with d := sawDecode args ch.regs }
  if ch.d.enable && !ch.key then { ch with key := true, stepPos := 0, acc := 0, wavePhase := 0, release := 0 }
  else if !ch.d.enable && ch.key then { ch with key := false, release := args.releaseStart }
  else ch

/-- The recompute gate (R310). -/
def sawGate (args : ModelArgs) (ch : SawChannel) : SawChannel :=
  if ch.update ≠ 0 then { sawRecompute args ch with update := 0 } else ch

/-- The channel is silent: key = 0 and release = 0 (R314). -/
def sawSilent (ch : SawChannel) : Bool := !ch.key && decide (ch.release = 0)

/-- `SawClock` (R333). -/
def sawClock (ch : SawChannel) : SawChannel :=
  let pos := ch.stepPos + 1
  if pos = 14 then { ch with stepPos := 0, acc := 0 }
  else if pos.getLsbD 0 then { ch with stepPos := pos }
  else { ch with stepPos := pos, acc := ch.acc + ch.d.rate.zeroExtend 8 }

/-- n ticks (R332). -/
def sawClocks (n : Nat) (ch : SawChannel) : SawChannel :=
  match n with
  | 0 => ch
  | n + 1 => sawClocks n (sawClock ch)

/-- The wave (R332). -/
def sawWave (args : ModelArgs) (ch : SawChannel) : SawChannel :=
  let phase := ch.wavePhase + args.cps
  sawClocks (phase / ch.d.waveStep) { ch with wavePhase := phase % ch.d.waveStep }

/-- OUT_SAW (R334): the default curve, or an implementation's within the constraint. The default is not stated for
RELEASE_START = 0 and release > 0: a free value (log entry 13). -/
def outSaw (args : ModelArgs) (lvl : Nat) (key : Bool) (release : Nat) : Nat :=
  if key = false ∧ release = 0 then 0
  else match args.outSaw with
    | .table k => Config.outSawTable k lvl key release
    | .linear =>
      if key then lvl
      else if args.releaseStart = 0 then Config.outSawUnstated lvl release
      else lvl * release / args.releaseStart.toNat

/-- The channel's output (R332): OUT_SAW(acc >> 3, key, release). -/
def sawOut (args : ModelArgs) (ch : SawChannel) : Nat := outSaw args (ch.acc.toNat >>> 3) ch.key ch.release.toNat

/-- The release step (R328). -/
def sawRelease (ch : SawChannel) : SawChannel :=
  if !ch.key && decide (0 < ch.release.toNat) then { ch with release := ch.release - 1 } else ch

/-- `SawStep` (R332): the channel after the sample, and its output. -/
def sawStep (args : ModelArgs) (ch : SawChannel) : SawChannel × Nat :=
  let ch := sawGate args ch
  if sawSilent ch then (ch, 0)
  else
    let ch := sawWave args ch
    (sawRelease ch, sawOut args ch)

/-! The meanings of the register writes. The address only selected the register (R306). -/

/-- SAW.R0 (R308). -/
def execSawR0 (_a : Addr) (v : Byte) (s : State) : Result :=
  onAudio .saw s fun t => { t with saw := sawWrite 0 v t.saw }

/-- SAW.R1 (R308). -/
def execSawR1 (_a : Addr) (v : Byte) (s : State) : Result :=
  onAudio .saw s fun t => { t with saw := sawWrite 1 v t.saw }

/-- SAW.R2 (R308). -/
def execSawR2 (_a : Addr) (v : Byte) (s : State) : Result :=
  onAudio .saw s fun t => { t with saw := sawWrite 2 v t.saw }

/-- SAW.R3 (R306): claimed, no effect. -/
def execSawR3 (_a : Addr) (_v : Byte) (s : State) : Result := onAudio .saw s id

end Sys2Proof.Machine
end

