-- ==== Sys2Proof/Machine/Square.lean ====
section
/-! DEFINITION. The SQUARE_CHIP: register writes and one channel's step (45_audio.md R302 to R328). -/

namespace Sys2Proof.Machine

/-! ## Register writes -/

/-- regs[k] ← V and its dirty bit; nothing else until the next SAMPLE (R308). -/
def squareWrite (k : Fin 4) (v : Byte) (ch : SquareChannel) : SquareChannel :=
  { ch with regs := ch.regs.set k.val v k.isLt, update := markSquare ch.update k }

/-- key ← 0; release ← RELEASE_START (R313). -/
def squareKeyOff (args : ModelArgs) (ch : SquareChannel) : SquareChannel :=
  { ch with key := false, release := args.releaseStart }

/-- One channel's part of SQ.ENABLE (R307). -/
def squareEnable (args : ModelArgs) (on : Bool) (ch : SquareChannel) : SquareChannel :=
  let ch := { ch with enabled := on }
  if on then ch
  else
    let ch := { ch with length := 0 }
    if ch.key then squareKeyOff args ch else ch

/-! ## The step of one channel (R321) -/

/-- Key-on at a recompute (R312). -/
def squareKeyOn (args : ModelArgs) (ch : SquareChannel) : SquareChannel :=
  { ch with
    key := true
    length := args.lengthTable[(lengthIndex ch.regs).toNat]
    envVol := 15
    dutyPos := 0
    release := 0
    envPhase := 0
    lenPhase := 0
    sweepPhase := 0
    wavePhase := 0 }

/-- Recompute: the decode of R311, then the key-on and the sweep reset of R312. -/
def squareRecompute (args : ModelArgs) (ch : SquareChannel) : SquareChannel :=
  let ch := { ch with d := squareDecode args ch.regs }
  let ch := if ch.update.getLsbD 3 && ch.enabled then squareKeyOn args ch else ch
  if ch.update.getLsbD 1 then { ch with sweepPhase := 0 } else ch

/-- The recompute gate (R310). -/
def squareGate (args : ModelArgs) (ch : SquareChannel) : SquareChannel :=
  if ch.update ≠ 0 then { squareRecompute args ch with update := 0 } else ch

/-- The channel is silent: key = 0 and release = 0 (R314). -/
def squareSilent (ch : SquareChannel) : Bool := !ch.key && decide (ch.release = 0)

/-- The envelope (R322). -/
def squareEnvelope (args : ModelArgs) (ch : SquareChannel) : SquareChannel :=
  let phase := ch.envPhase + args.cps
  let n := phase / ch.d.envStep
  { ch with
    envPhase := phase % ch.d.envStep
    envVol := if ch.d.loop then ch.envVol - BitVec.ofNat 4 n else BitVec.ofNat 4 (ch.envVol.toNat - n) }

/-- The length counter (R323). -/
def squareLength (args : ModelArgs) (ch : SquareChannel) : SquareChannel :=
  if ch.key && !ch.d.loop then
    let phase := ch.lenPhase + args.cps
    let m := phase / max 1 args.lenStep
    let ch := { ch with lenPhase := phase % max 1 args.lenStep }
    if ch.length.toNat ≤ m then squareKeyOff args { ch with length := 0 }
    else { ch with length := BitVec.ofNat 8 (ch.length.toNat - m) }
  else ch

/-- The target period of one sweep clock (R324). -/
def sweepTarget (d : SquareDerived) : Nat :=
  let delta := d.period.toNat >>> d.shift.toNat
  if d.negate then d.period.toNat - delta else d.period.toNat + delta

/-- The sweep's write-back of a period into registers 2 and 3 and the derived record, with no dirty bit (R324). -/
def setSweptPeriod (args : ModelArgs) (p : BitVec 11) (ch : SquareChannel) : SquareChannel :=
  { ch with
    d := { ch.d with period := p, waveStep := squareWaveStep args p }
    regs := (ch.regs.set 2 (p.extractLsb' 0 8)).set 3 (ch.regs[3].extractLsb' 3 5 ++ p.extractLsb' 8 3) }

/-- Up to `k` sweep clocks, stopping at the first that would mute (R324). -/
def sweepClocks (args : ModelArgs) (k : Nat) (ch : SquareChannel) : SquareChannel :=
  match k with
  | 0 => ch
  | k + 1 =>
    if ch.d.period.toNat < args.periodFloor ∨ 0x7FF < sweepTarget ch.d then ch
    else sweepClocks args k (setSweptPeriod args (BitVec.ofNat 11 (sweepTarget ch.d)) ch)

/-- The sweep (R324). -/
def squareSweep (args : ModelArgs) (ch : SquareChannel) : SquareChannel :=
  if args.hasSweep && ch.d.sweepEn && decide (ch.d.shift ≠ 0) then
    let phase := ch.sweepPhase + args.cps
    sweepClocks args (phase / ch.d.sweepStep) { ch with sweepPhase := phase % ch.d.sweepStep }
  else ch

/-- The channel emits silence (R325). -/
def squareMuted (args : ModelArgs) (d : SquareDerived) : Bool :=
  decide (d.period.toNat < args.periodFloor) || (!d.negate && decide (args.ceiling[d.shift.toNat] < d.period.toNat))

/-- The wave (R326). -/
def squareWave (args : ModelArgs) (ch : SquareChannel) : SquareChannel :=
  let phase := ch.wavePhase + args.cps
  { ch with
    wavePhase := phase % ch.d.waveStep
    dutyPos := ch.dutyPos + BitVec.ofNat 3 (phase / ch.d.waveStep) }

/-- OUT_SQ (R327): the default curve, or an implementation's within the constraints. The default is not stated for
RELEASE_START = 0 and release > 0: a free value (log entry 13). -/
def outSq (args : ModelArgs) (vol : Nat) (key : Bool) (release : Nat) : Nat :=
  if vol = 0 ∨ (key = false ∧ release = 0) then 0
  else match args.outSq with
    | .table k => Config.outSqTable k vol key release
    | .linear =>
      if key then vol
      else if args.releaseStart = 0 then Config.outSqUnstated vol release
      else vol * release / args.releaseStart.toNat

/-- The channel's output (R327). -/
def squareOut (args : ModelArgs) (ch : SquareChannel) : Nat :=
  let vol := if ch.d.const then ch.d.vol.toNat else ch.envVol.toNat
  if args.dutyTable[ch.d.duty.toNat][ch.dutyPos.toNat] then outSq args vol ch.key ch.release.toNat else 0

/-- The release step (R328). -/
def squareRelease (ch : SquareChannel) : SquareChannel :=
  if !ch.key && decide (0 < ch.release.toNat) then { ch with release := ch.release - 1 } else ch

/-- `SquareStep` (R321): the channel after the sample, and its output. -/
def squareStep (args : ModelArgs) (ch : SquareChannel) : SquareChannel × Nat :=
  let ch := squareGate args ch
  if squareSilent ch then (ch, 0)
  else
    let ch := squareSweep args (squareLength args (squareEnvelope args ch))
    if squareMuted args ch.d then (squareRelease ch, 0)
    else
      let ch := squareWave args ch
      (squareRelease ch, squareOut args ch)

/-! ## The meanings of the register writes -/

/-- SQ0.R0 (R308). -/
def execSq0R0 (v : Byte) (s : State) : Result :=
  onAudio .square s fun t => { t with sq0 := squareWrite 0 v t.sq0 }

/-- SQ0.R1 (R308). -/
def execSq0R1 (v : Byte) (s : State) : Result :=
  onAudio .square s fun t => { t with sq0 := squareWrite 1 v t.sq0 }

/-- SQ0.R2 (R308). -/
def execSq0R2 (v : Byte) (s : State) : Result :=
  onAudio .square s fun t => { t with sq0 := squareWrite 2 v t.sq0 }

/-- SQ0.R3 (R308). -/
def execSq0R3 (v : Byte) (s : State) : Result :=
  onAudio .square s fun t => { t with sq0 := squareWrite 3 v t.sq0 }

/-- SQ1.R0 (R308). -/
def execSq1R0 (v : Byte) (s : State) : Result :=
  onAudio .square s fun t => { t with sq1 := squareWrite 0 v t.sq1 }

/-- SQ1.R1 (R308). -/
def execSq1R1 (v : Byte) (s : State) : Result :=
  onAudio .square s fun t => { t with sq1 := squareWrite 1 v t.sq1 }

/-- SQ1.R2 (R308). -/
def execSq1R2 (v : Byte) (s : State) : Result :=
  onAudio .square s fun t => { t with sq1 := squareWrite 2 v t.sq1 }

/-- SQ1.R3 (R308). -/
def execSq1R3 (v : Byte) (s : State) : Result :=
  onAudio .square s fun t => { t with sq1 := squareWrite 3 v t.sq1 }

/-- SQ.DA (R309): da_value ← V, at once. -/
def execSqDa (v : Byte) (s : State) : Result := onAudio .square s fun t => { t with da := v }

/-- SQ.ENABLE (R307): both channels, at once, with no dirty bit. -/
def execSqEnable (v : Byte) (s : State) : Result :=
  onAudio .square s fun t =>
    { t with sq0 := squareEnable t.args (v.getLsbD 0) t.sq0, sq1 := squareEnable t.args (v.getLsbD 1) t.sq1 }

end Sys2Proof.Machine
end

