-- ==== Sys2Proof/Machine/Sample.lean ====
section
/-! DEFINITION. The sample-generation call (45_audio.md R320, R335, R336). -/

namespace Sys2Proof.Machine

/-- `answer n`. -/
def answerSample (n : Nat) (s : State) : State := { s with out := { s.out with sample := some n } }

/-- SAMPLE's effect (R320): the mix is the sum of the chip's channels (R336), the DA value unshifted (R335). -/
def sampleChip (s : State) : State :=
  match s.cart.audioOption with
  | .none => answerSample 0 s
  | .square =>
    let r0 := squareStep s.args s.sq0
    let r1 := squareStep s.args s.sq1
    answerSample (r0.2 + r1.2 + s.da.toNat) { s with sq0 := r0.1, sq1 := r1.1 }
  | .saw =>
    let r := sawStep s.args s.saw
    answerSample r.2 { s with saw := r.1 }

/-- SAMPLE (R320). -/
def execSample (s : State) : Result := ready s sampleChip

end Sys2Proof.Machine
end

