-- ==== Sys2Proof/Machine/Sunsoft.lean ====
section
/-! DEFINITION. The SUNSOFT window writes (42_sunsoft.md). -/

namespace Sys2Proof.Machine

/-! The windows' effects. -/

/-- Windows $8 to $B: s_chr[w] ← V and the 2 KiB page (R211). -/
def sunsoftChr (w : Fin 4) (v : Byte) (s : State) : State :=
  { s with
    sunsoft := { s.sunsoft with chr := s.sunsoft.chr.set w.val v w.isLt }
    view := selectChr2 w (maskPage s.cart.chr2 v) s.view }

/-- PushNt() from the registers of `s` (R215). -/
def pushNts (s : State) : State := { s with view := pushNt s.cart s.sunsoft s.view }

/-- Windows $C and $D: s_nt[k] ← V; PushNt() (R212). -/
def sunsoftNt (k : Fin 2) (v : Byte) (s : State) : State :=
  pushNts { s with sunsoft := { s.sunsoft with nt := s.sunsoft.nt.set k.val v k.isLt } }

/-- Window $E: s_ntctl ← V; PushNt() (R213). -/
def sunsoftNtctl (v : Byte) (s : State) : State :=
  pushNts { s with sunsoft := { s.sunsoft with ntctl := v } }

/-- Window $F: s_prg ← V and the 16 KiB page at $8000 (R214). -/
def sunsoftPrg (v : Byte) (s : State) : State :=
  { s with
    sunsoft := { s.sunsoft with prg := v }
    view := selectPrg16 0 (maskPage s.cart.prg16 v) s.view }

/-! The meanings. The address only selected the window (R210). -/

/-- SUNSOFT.CHR0 (R211). -/
def execSunsoftChr0 (_a : Addr) (v : Byte) (s : State) : Result := onMapper [.sunsoft] s (sunsoftChr 0 v)

/-- SUNSOFT.CHR1 (R211). -/
def execSunsoftChr1 (_a : Addr) (v : Byte) (s : State) : Result := onMapper [.sunsoft] s (sunsoftChr 1 v)

/-- SUNSOFT.CHR2 (R211). -/
def execSunsoftChr2 (_a : Addr) (v : Byte) (s : State) : Result := onMapper [.sunsoft] s (sunsoftChr 2 v)

/-- SUNSOFT.CHR3 (R211). -/
def execSunsoftChr3 (_a : Addr) (v : Byte) (s : State) : Result := onMapper [.sunsoft] s (sunsoftChr 3 v)

/-- SUNSOFT.NT0 (R212). -/
def execSunsoftNt0 (_a : Addr) (v : Byte) (s : State) : Result := onMapper [.sunsoft] s (sunsoftNt 0 v)

/-- SUNSOFT.NT1 (R212). -/
def execSunsoftNt1 (_a : Addr) (v : Byte) (s : State) : Result := onMapper [.sunsoft] s (sunsoftNt 1 v)

/-- SUNSOFT.NTCTL (R213). -/
def execSunsoftNtctl (_a : Addr) (v : Byte) (s : State) : Result := onMapper [.sunsoft] s (sunsoftNtctl v)

/-- SUNSOFT.PRG (R214). -/
def execSunsoftPrg (_a : Addr) (v : Byte) (s : State) : Result := onMapper [.sunsoft] s (sunsoftPrg v)

end Sys2Proof.Machine
end

