-- ==== Sys2Proof/Machine/Dispatch.lean ====
section
/-! DEFINITION. What each instruction does: one arm per constructor, each one call of its meaning. -/

namespace Sys2Proof.Machine

/-- The meaning of an instruction (30_encoding.md R101, R110). -/
def exec (i : Instr) (s : State) : Host.Outcome State Fault Refusal :=
  match i with
  | .bandaiChr0 a v => Sys2Proof.Machine.execBandaiChr0 a v s
  | .bandaiChr1 a v => Sys2Proof.Machine.execBandaiChr1 a v s
  | .bandaiChr2 a v => Sys2Proof.Machine.execBandaiChr2 a v s
  | .bandaiChr3 a v => Sys2Proof.Machine.execBandaiChr3 a v s
  | .bandaiChr4 a v => Sys2Proof.Machine.execBandaiChr4 a v s
  | .bandaiChr5 a v => Sys2Proof.Machine.execBandaiChr5 a v s
  | .bandaiChr6 a v => Sys2Proof.Machine.execBandaiChr6 a v s
  | .bandaiChr7 a v => Sys2Proof.Machine.execBandaiChr7 a v s
  | .bandaiPrg a v => Sys2Proof.Machine.execBandaiPrg a v s
  | .bandaiMirror a v => Sys2Proof.Machine.execBandaiMirror a v s
  | .bandaiIrqctl a v => Sys2Proof.Machine.execBandaiIrqctl a v s
  | .bandaiLatchlo a v => Sys2Proof.Machine.execBandaiLatchlo a v s
  | .bandaiLatchhi a v => Sys2Proof.Machine.execBandaiLatchhi a v s
  | .bandaiPort13 a v => Sys2Proof.Machine.execBandaiPort13 a v s
  | .bandaiPort14 a v => Sys2Proof.Machine.execBandaiPort14 a v s
  | .bandaiPort15 a v => Sys2Proof.Machine.execBandaiPort15 a v s
  | .mmcUnclaimed a v => Sys2Proof.Machine.execMmcUnclaimed a v s
  | .mmc2Prg8 a v => Sys2Proof.Machine.execMmc2Prg8 a v s
  | .mmc4Prg16 a v => Sys2Proof.Machine.execMmc4Prg16 a v s
  | .mmcChrfd0 a v => Sys2Proof.Machine.execMmcChrfd0 a v s
  | .mmcChrfe0 a v => Sys2Proof.Machine.execMmcChrfe0 a v s
  | .mmcChrfd1 a v => Sys2Proof.Machine.execMmcChrfd1 a v s
  | .mmcChrfe1 a v => Sys2Proof.Machine.execMmcChrfe1 a v s
  | .mmcMirror a v => Sys2Proof.Machine.execMmcMirror a v s
  | .sunsoftChr0 a v => Sys2Proof.Machine.execSunsoftChr0 a v s
  | .sunsoftChr1 a v => Sys2Proof.Machine.execSunsoftChr1 a v s
  | .sunsoftChr2 a v => Sys2Proof.Machine.execSunsoftChr2 a v s
  | .sunsoftChr3 a v => Sys2Proof.Machine.execSunsoftChr3 a v s
  | .sunsoftNt0 a v => Sys2Proof.Machine.execSunsoftNt0 a v s
  | .sunsoftNt1 a v => Sys2Proof.Machine.execSunsoftNt1 a v s
  | .sunsoftNtctl a v => Sys2Proof.Machine.execSunsoftNtctl a v s
  | .sunsoftPrg a v => Sys2Proof.Machine.execSunsoftPrg a v s
  | .sq0R0 v => Sys2Proof.Machine.execSq0R0 v s
  | .sq0R1 v => Sys2Proof.Machine.execSq0R1 v s
  | .sq0R2 v => Sys2Proof.Machine.execSq0R2 v s
  | .sq0R3 v => Sys2Proof.Machine.execSq0R3 v s
  | .sq1R0 v => Sys2Proof.Machine.execSq1R0 v s
  | .sq1R1 v => Sys2Proof.Machine.execSq1R1 v s
  | .sq1R2 v => Sys2Proof.Machine.execSq1R2 v s
  | .sq1R3 v => Sys2Proof.Machine.execSq1R3 v s
  | .sqDa v => Sys2Proof.Machine.execSqDa v s
  | .sqEnable v => Sys2Proof.Machine.execSqEnable v s
  | .sawR0 a v => Sys2Proof.Machine.execSawR0 a v s
  | .sawR1 a v => Sys2Proof.Machine.execSawR1 a v s
  | .sawR2 a v => Sys2Proof.Machine.execSawR2 a v s
  | .sawR3 a v => Sys2Proof.Machine.execSawR3 a v s
  | .ppuLatch p => Sys2Proof.Machine.execPpuLatch p s
  | .scanlineStart line => Sys2Proof.Machine.execScanlineStart line s
  | .predict line => Sys2Proof.Machine.execPredict line s
  | .reset => Sys2Proof.Machine.execReset s
  | .renderLine v fineX bgSel leftClip bgEnabled widthOk => Sys2Proof.Machine.execRenderLine v fineX bgSel leftClip bgEnabled widthOk s
  | .sample => Sys2Proof.Machine.execSample s
  | .save => Sys2Proof.Machine.execSave s
  | .load => Sys2Proof.Machine.execLoad s
  | .init id prg chr mirror audio => Sys2Proof.Machine.execInit id prg chr mirror audio s
  | .reservedA rest => Sys2Proof.Machine.execReservedA rest s
  | .reservedB rest => Sys2Proof.Machine.execReservedB rest s
  | .reservedC rest => Sys2Proof.Machine.execReservedC rest s
  | .reservedD rest => Sys2Proof.Machine.execReservedD rest s
  | .reservedE rest => Sys2Proof.Machine.execReservedE rest s
  | .reservedF rest => Sys2Proof.Machine.execReservedF rest s

end Sys2Proof.Machine
end

