-- ==== Sys2Proof/Machine/Transaction.lean ====
section
/-! DEFINITION. One transaction word run on a state (00_scope.md R9, 30_encoding.md R109, 60_exceptions.md R385), and the
other inputs of the block. -/

namespace Sys2Proof.Machine

/-- An instruction a component decoded, or nothing where it does not claim the write. -/
def execOption (i : Option Instr) (s : State) : Result :=
  match i with
  | none => .next s
  | some i => exec i s

/-- A bus write: refused before INIT (R384(c)); else the mapper first and then the audio module (20_memory.md R71). A write
no component claims changes nothing (30_encoding.md R109). -/
def busWrite (mapper audio : Option Instr) (s : State) : Result :=
  whenReady s fun t => andThen (execOption mapper t) (execOption audio)

/-- What a word decoded to. -/
def execDecoded (d : Decoded) (s : State) : Result :=
  match d with
  | .one i => exec i s
  | .write m a => busWrite m a s

/-- The refusal of a word that does not decode (R384(a)). -/
def refusalOf (e : DecodeError) : Refusal :=
  match e with
  | .mustBeZero => .mustBeZero
  | .audioReserved => .audioReserved

/-- The position advances by exactly one (10_state.md R24). -/
def State.advance (s : State) : State := { s with pos := s.pos + 1 }

/-- One transaction word (R9): the decode checks first (R385), then its meaning, then the position. -/
def runWord (w : TxWord) (s : State) : Result :=
  match decode s.selection w with
  | .error e => .refused (refusalOf e)
  | .ok d => andThen (execDecoded d s) fun t => .next t.advance

/-- The next input delivered, the others left waiting. -/
def takeInput (rest : List Input) (s : State) : State := { s with inputs := rest }

/-- What an input does. Only a transaction word is a transaction; the others are the outside world's own acts (log entries
10, 11, 21): a CPU read changes no block state and reports its byte (20_memory.md R72), the PPU writes CIRAM (R77), the
host hands over a save stream (R79). DESIGN CHOICE: a CPU read while active = NONE, for which the spec gives no view (R401),
still answers through whatever the view holds (log entry 21). -/
def deliver (i : Input) (s : State) : Result :=
  match i with
  | .transaction w => runWord w s
  | .cpuRead a => .next { s.clearReport with out := { cpuRead := cpuRead s a } }
  | .ciramWrite off v => .next { s.clearReport with ciram := s.ciram.write off.toNat v }
  | .saveStream bytes => .next { s.clearReport with stream := bytes }

/-! Placing a word where the next step runs it (log entry 3). -/

/-- A cartridge for which a word standing alone is run, when none is claimed: two 16 KiB PRG pages and one 8 KiB CHR page
of the variant and audio module by which `decodeTableWord` reads the word. -/
def claimForWord (w : TxWord) (s : State) : State :=
  let sel := tableSelection w
  let id : Byte := if sel.active = .mmc2 then 9 else 16
  claim ⟨id, 2, 1, .vertical, sel.audio⟩ sel.active s

/-- A word whose instruction needs a claimed cartridge: every one that decodes, but INIT's and the reserved kinds'
(46_lifecycle.md R363). -/
def needsCartridge (w : TxWord) : Bool := decide ((kindOf w).toNat < 9)

/-- LOAD's operand when a word is placed alone: a stream of zero bytes, one payload long (30_encoding.md R105). -/
def zeroStream (s : State) : State := { s with stream := List.replicate (payloadLen s) 0 }

/-- `s` with a cartridge claimed for `w` if none is and `w` needs one, and with LOAD's operand if `w` is a LOAD. -/
def prepareFor (w : TxWord) (s : State) : State :=
  if s.active = .none ∧ needsCartridge w = true then
    let t := claimForWord w s
    if (kindOf w).toNat = 8 then zeroStream t else t
  else s

end Sys2Proof.Machine
end

