-- ==== Sys2Proof/Machine/Step.lean ====
section
/-! DEFINITION. One step of the block: the next input delivered (00_scope.md R9, 10_state.md R24). -/

namespace Sys2Proof.Machine

/-- One step. With no input waiting the block holds its state unchanged (60_exceptions.md R394). -/
def step (s : State) : Host.Outcome State Fault Refusal :=
  match s.inputs with
  | [] => .next s
  | i :: rest => deliver i (takeInput rest s)

/-- `s` with a table word as its next transaction. Before any INIT a cartridge of the word's component is claimed first,
since no other word runs then (46_lifecycle.md R363; log entry 3). -/
def State.withFetchWord (s : State) (nbits w : Nat) : State :=
  let t := prepareFor (tableWord nbits w) s
  { t with inputs := .transaction (tableWord nbits w) :: t.inputs }

end Sys2Proof.Machine
end

