-- ==== Sys2Proof/Safety.lean ====
section
/-! DEFINITION. What holds of the block in every state it can reach (00_scope.md to 70_reset_and_hazards.md), and the
arithmetic in which the statements say what a transaction does. Nothing here is used by the machine. -/

namespace Sys2Proof.Machine

/-! ## Invariants -/

/-- n = 2^k for some k (46_lifecycle.md R360). -/
def PowerOfTwo (n : Nat) : Prop := ∃ k, n = 2 ^ k

/-- A claimed cartridge has page counts that INIT accepts and the variant of its id (46_lifecycle.md R362). -/
def CartOk (s : State) : Prop :=
  s.active ≠ .none →
    PowerOfTwo s.cart.prgPages.toNat ∧ PowerOfTwo s.cart.chrPages.toNat ∧
      (s.active = .mmc2 → 2 ≤ s.cart.prgPages.toNat) ∧ variantOf s.cart.mapperId = some s.active

/-- The bus view is the view of the registers (10_state.md R30). -/
def ViewOk (s : State) : Prop := s.active ≠ .none → s.view = viewOf s

/-- Each latch holds $FD or $FE (10_state.md R26). -/
def LatchOk (s : State) : Prop :=
  (s.mmc.latch0 = 0xFD ∨ s.mmc.latch0 = 0xFE) ∧ (s.mmc.latch1 = 0xFD ∨ s.mmc.latch1 = 0xFE)

/-- The memories are in their canonical form. -/
def MemoryOk (s : State) : Prop := s.prgRom.wf = true ∧ s.chrRom.wf = true ∧ s.ciram.wf = true

/-- A square channel with nothing pending has the derived record of its registers (46_lifecycle.md R370). -/
def SquareOk (args : ModelArgs) (ch : SquareChannel) : Prop := ch.update = 0 → ch.d = squareDecode args ch.regs

/-- The saw channel's derived record likewise (46_lifecycle.md R370), and step_pos is 0 to 13 (10_state.md R40). -/
def SawOk (args : ModelArgs) (ch : SawChannel) : Prop :=
  (ch.update = 0 → ch.d = sawDecode args ch.regs) ∧ ch.stepPos.toNat ≤ 13

/-- The audio channels' invariant. -/
def AudioOk (s : State) : Prop := SquareOk s.args s.sq0 ∧ SquareOk s.args s.sq1 ∧ SawOk s.args s.saw

/-- Every phase of a square channel fits the 64 bits it is saved in (92_eei_decisions.md D45). -/
def SquarePhasesFit (ch : SquareChannel) : Prop :=
  ch.envPhase < 2 ^ 64 ∧ ch.lenPhase < 2 ^ 64 ∧ ch.sweepPhase < 2 ^ 64 ∧ ch.wavePhase < 2 ^ 64

/-- Every phase that a SAVE writes fits its 64 bits (92_eei_decisions.md D45). -/
def PhasesFit (s : State) : Prop := SquarePhasesFit s.sq0 ∧ SquarePhasesFit s.sq1 ∧ s.saw.wavePhase < 2 ^ 64

/-- Everything above but the phases' size. -/
def Inv (s : State) : Prop := CartOk s ∧ ViewOk s ∧ LatchOk s ∧ MemoryOk s ∧ AudioOk s

/-- What belongs to no component of the cartridge is the same in both states: the register files of the variants that are not
active, and the state of an audio module that is absent (log entry 6). -/
def AbsentKept (s t : State) : Prop :=
  (s.active ≠ .bandai → t.bandai = s.bandai) ∧
  (s.active ≠ .mmc2 → s.active ≠ .mmc4 → t.mmc = s.mmc) ∧
  (s.active ≠ .sunsoft → t.sunsoft = s.sunsoft) ∧
  (s.cart.audioOption ≠ .square → t.sq0 = s.sq0 ∧ t.sq1 = s.sq1 ∧ t.da = s.da) ∧
  (s.cart.audioOption ≠ .saw → t.saw = s.saw)

/-! ## The view in arithmetic -/

/-- Which of two halves or banks name table `t` shows under a mirroring mode (10_state.md R32, 42_sunsoft.md R215). -/
def bankOf (m : MirrorMode) (t : Fin 4) : Fin 2 :=
  match m with
  | .vertical => if t.val % 2 = 0 then 0 else 1
  | .horizontal => if t.val < 2 then 0 else 1
  | .singleLow => 0
  | .singleHigh => 1

/-- nt_src after SetMirroring(m) (10_state.md R32). -/
def ciramTables (m : MirrorMode) : Vector NtSource 4 := Vector.ofFn fun t => .ciram (bankOf m t)

/-- nt_src after PushNt() of SUNSOFT (42_sunsoft.md R215), for `chr1` 1 KiB CHR pages: CIRAM halves while V[4] of the
control is 0, else CHR pages (bank | $80), wrapped. -/
def sunsoftTables (chr1 : Nat) (nt : Vector Byte 2) (ctl : Byte) : Vector NtSource 4 :=
  Vector.ofFn fun t =>
    let k := bankOf (modeOf (BitVec.ofNat 2 ctl.toNat)) t
    if ctl.toNat / 16 % 2 = 1 then .chr ((nt[k.val] ||| 0x80).toNat % chr1) else .ciram k

/-- chr_slot with the 4 KiB page q in half h: block n of that half shows page 4q + (n mod 4) (41_mmc2_mmc4.md R184). -/
def withChrHalf (h : Nat) (q : Nat) (slots : Vector Nat 8) : Vector Nat 8 :=
  Vector.ofFn fun n => if n.val / 4 = h then 4 * q + n.val % 4 else slots[n.val]

/-- chr_slot with the 2 KiB page q in window w: block n of that window shows page 2q + (n mod 2) (42_sunsoft.md R211). -/
def withChrPair (w : Nat) (q : Nat) (slots : Vector Nat 8) : Vector Nat 8 :=
  Vector.ofFn fun n => if n.val / 2 = w then 2 * q + n.val % 2 else slots[n.val]

/-- prg_slot with the 16 KiB page p at $8000: slots 0 and 1 show 2p and 2p + 1 (00_scope.md R8). -/
def withLow16 (p : Nat) (slots : Vector Nat 4) : Vector Nat 4 :=
  Vector.ofFn fun n => if n.val < 2 then 2 * p + n.val else slots[n.val]

/-! ## One line of the renderer in arithmetic (44_bg_renderer.md R262 to R273) -/

/-- Name table, as a number, and column of tile i of a line with cursor v (R265). -/
def lineTable (v : BitVec 15) (i : Nat) : BitVec 2 :=
  BitVec.ofNat 2 (v.toNat / 2048 % 2 * 2 + (v.toNat / 1024 + (v.toNat % 32 + i) / 32) % 2)

/-- cx of tile i (R265). -/
def lineColumn (v : BitVec 15) (i : Nat) : Nat := (v.toNat % 32 + i) % 32

/-- cy (10_state.md R35). -/
def lineRow (v : BitVec 15) : Nat := v.toNat / 32 % 32

/-- The tile index of tile i (R267). -/
def lineTile (s : State) (v : BitVec 15) (i : Nat) : Byte :=
  ntRead s (lineTable v i) (BitVec.ofNat 10 (lineRow v * 32 + lineColumn v i))

/-- The palette group of tile i: the quadrant of the attribute byte (R266). -/
def lineGroup (s : State) (v : BitVec 15) (i : Nat) : Nat :=
  let attr := ntRead s (lineTable v i) (BitVec.ofNat 10 (960 + lineRow v / 4 * 8 + lineColumn v i / 4))
  attr.toNat / 2 ^ (lineRow v / 2 % 2 * 4 + lineColumn v i / 2 % 2 * 2) % 4

/-- The colour of pixel p of tile i: a bit of each plane byte of the row (R268). -/
def lineColour (s : State) (v : BitVec 15) (bgSel : Bool) (i p : Nat) : Nat :=
  let base := bgSel.toNat * 4096 + (lineTile s v i).toNat * 16 + v.toNat / 4096
  let lo := patRead s (BitVec.ofNat 14 base)
  let hi := patRead s (BitVec.ofNat 14 (base + 8))
  lo.toNat / 2 ^ (7 - p) % 2 + 2 * (hi.toNat / 2 ^ (7 - p) % 2)

/-- LINE[x] of a line on which no latch moves (R270 to R273). -/
def linePixel (s : State) (v : BitVec 15) (fineX : BitVec 3) (bgSel leftClip : Bool) (x : Nat) : Byte :=
  let i := (x + fineX.toNat) / 8
  let colour := lineColour s v bgSel i ((x + fineX.toNat) % 8)
  if colour = 0 ∨ (leftClip = true ∧ x < 8) then 0 else BitVec.ofNat 8 (lineGroup s v i * 4 + colour)

/-- The trigger tiles of a line in the order of the walk (R279). -/
def lineTriggers (s : State) (v : BitVec 15) : List Byte :=
  ((List.range 33).map (lineTile s v)).filter isTrigger

end Sys2Proof.Machine

namespace Sys2Proof

/-! ## Kinds of instructions -/

/-- The kind of an instruction's word (30_encoding.md R101). -/
def Instr.kind (i : Instr) : BitVec 4 := kindOf (encode i)

/-- A bus write. -/
def Instr.isBusWrite (i : Instr) : Bool := decide (i.kind = 0x0#4)

/-- SCANLINE_START. -/
def Instr.isCommit (i : Instr) : Bool := decide (i.kind = 0x2#4)

/-- RENDER_LINE. -/
def Instr.isRender (i : Instr) : Bool := decide (i.kind = 0x5#4)

/-- INIT. -/
def Instr.isInit (i : Instr) : Bool := decide (i.kind = 0x9#4)

/-- One of the reserved kinds. -/
def Instr.isReserved (i : Instr) : Bool := decide (0xA ≤ i.kind.toNat)

/-- PPU_LATCH, RESET, RENDER_LINE, LOAD or INIT: what may move a latch (10_state.md R28). -/
def Instr.mayMoveLatch (i : Instr) : Bool := decide (i.kind ∈ [0x1#4, 0x4#4, 0x5#4, 0x8#4, 0x9#4])

/-- What may write irq_counter or irq_enable beside a commit: a port-10 write, LOAD, RESET, INIT (43_irq.md R247). -/
def Instr.Rearms (i : Instr) : Prop := (∃ a v, i = .bandaiIrqctl a v) ∨ i.kind ∈ [0x4#4, 0x8#4, 0x9#4]

/-- What may enable the counter: a port-10 write with V[0] = 1, or LOAD (43_irq.md R247, 46_lifecycle.md R369). -/
def Instr.MayEnable (i : Instr) : Prop := (∃ a v, i = .bandaiIrqctl a v ∧ v.toNat % 2 = 1) ∨ i = .load

/-! ## Encodings -/

/-- The instruction is among what a decoded word holds. -/
def Decoded.holds (d : Decoded) (i : Instr) : Prop :=
  match d with
  | .one j => j = i
  | .write m a => m = some i ∨ a = some i

/-- The components that decode an instruction: the selections under which it is read from its word (30_encoding.md R109,
R110). An instruction of no component is read under every selection. -/
def Instr.componentOf (i : Instr) (sel : Selection) : Prop :=
  match i with
  | .bandaiChr0 _ _ => sel.active = .bandai
  | .bandaiChr1 _ _ => sel.active = .bandai
  | .bandaiChr2 _ _ => sel.active = .bandai
  | .bandaiChr3 _ _ => sel.active = .bandai
  | .bandaiChr4 _ _ => sel.active = .bandai
  | .bandaiChr5 _ _ => sel.active = .bandai
  | .bandaiChr6 _ _ => sel.active = .bandai
  | .bandaiChr7 _ _ => sel.active = .bandai
  | .bandaiPrg _ _ => sel.active = .bandai
  | .bandaiMirror _ _ => sel.active = .bandai
  | .bandaiIrqctl _ _ => sel.active = .bandai
  | .bandaiLatchlo _ _ => sel.active = .bandai
  | .bandaiLatchhi _ _ => sel.active = .bandai
  | .bandaiPort13 _ _ => sel.active = .bandai
  | .bandaiPort14 _ _ => sel.active = .bandai
  | .bandaiPort15 _ _ => sel.active = .bandai
  | .mmcUnclaimed _ _ => sel.active = .mmc2 ∨ sel.active = .mmc4
  | .mmc2Prg8 _ _ => sel.active = .mmc2
  | .mmc4Prg16 _ _ => sel.active = .mmc4
  | .mmcChrfd0 _ _ => sel.active = .mmc2 ∨ sel.active = .mmc4
  | .mmcChrfe0 _ _ => sel.active = .mmc2 ∨ sel.active = .mmc4
  | .mmcChrfd1 _ _ => sel.active = .mmc2 ∨ sel.active = .mmc4
  | .mmcChrfe1 _ _ => sel.active = .mmc2 ∨ sel.active = .mmc4
  | .mmcMirror _ _ => sel.active = .mmc2 ∨ sel.active = .mmc4
  | .sunsoftChr0 _ _ => sel.active = .sunsoft
  | .sunsoftChr1 _ _ => sel.active = .sunsoft
  | .sunsoftChr2 _ _ => sel.active = .sunsoft
  | .sunsoftChr3 _ _ => sel.active = .sunsoft
  | .sunsoftNt0 _ _ => sel.active = .sunsoft
  | .sunsoftNt1 _ _ => sel.active = .sunsoft
  | .sunsoftNtctl _ _ => sel.active = .sunsoft
  | .sunsoftPrg _ _ => sel.active = .sunsoft
  | .sq0R0 _ => sel.audio = .square
  | .sq0R1 _ => sel.audio = .square
  | .sq0R2 _ => sel.audio = .square
  | .sq0R3 _ => sel.audio = .square
  | .sq1R0 _ => sel.audio = .square
  | .sq1R1 _ => sel.audio = .square
  | .sq1R2 _ => sel.audio = .square
  | .sq1R3 _ => sel.audio = .square
  | .sqDa _ => sel.audio = .square
  | .sqEnable _ => sel.audio = .square
  | .sawR0 _ _ => sel.audio = .saw
  | .sawR1 _ _ => sel.audio = .saw
  | .sawR2 _ _ => sel.audio = .saw
  | .sawR3 _ _ => sel.audio = .saw
  | .ppuLatch _ => True
  | .scanlineStart _ => True
  | .predict _ => True
  | .reset => True
  | .renderLine _ _ _ _ _ _ => True
  | .sample => True
  | .save => True
  | .load => True
  | .init _ _ _ _ _ => True
  | .reservedA _ => True
  | .reservedB _ => True
  | .reservedC _ => True
  | .reservedD _ => True
  | .reservedE _ => True
  | .reservedF _ => True

/-- A word R108 refuses, in arithmetic: a reserved kind, a non-zero must-be-0 field, or INIT with audio = 3. -/
def invalidWord (w : Nat) : Bool :=
  let kind := w / 2 ^ 28
  let rest := w % 2 ^ 28
  decide (0xA ≤ kind) ||
  (decide (kind = 0x0) && decide (rest / 2 ^ 24 ≠ 0)) ||
  (decide (kind = 0x1) && decide (rest / 2 ^ 14 ≠ 0)) ||
  ((decide (kind = 0x2) || decide (kind = 0x3)) && decide (rest / 2 ^ 9 ≠ 0)) ||
  ((decide (kind = 0x4) || decide (kind = 0x6) || decide (kind = 0x7) || decide (kind = 0x8)) && decide (rest ≠ 0)) ||
  (decide (kind = 0x5) && decide (rest / 2 ^ 22 ≠ 0)) ||
  (decide (kind = 0x9) && decide (rest / 2 ^ 18 % 4 = 3))

end Sys2Proof

namespace Sys2Proof.Machine

/-! ## Sequences of instructions -/

/-- The state after a list of instructions, if each answers a next state. -/
def runInstrs (l : List Instr) (s : State) : Option State :=
  match l with
  | [] => some s
  | i :: rest =>
    match exec i s with
    | .next t => runInstrs rest t
    | .fault _ => none
    | .refused _ => none

/-- How many commits a list holds. -/
def commitCount (l : List Instr) : Nat := (l.filter Instr.isCommit).length

/-- The PPU_LATCH transactions of the first `n` tiles of a line, in the order of the walk (44_bg_renderer.md R269, R279). -/
def latchCalls (s : State) (v : BitVec 15) (bgSel : Bool) (n : Nat) : List Instr :=
  (((List.range n).map (lineTile s v)).filter isTrigger).map fun t =>
    .ppuLatch (BitVec.ofNat 14 (bgSel.toNat * 4096 + t.toNat * 16))

/-! ## The save stream in arithmetic (46_lifecycle.md R368, R371) -/

/-- The k bytes of a number, least significant first (20_memory.md R81). -/
def littleEndian (k n : Nat) : List Byte := (List.range k).map fun i => BitVec.ofNat 8 (n / 256 ^ i)

/-- The BANDAI payload (R368). -/
def bandaiSaved (r : BandaiRegs) : List Byte :=
  r.chr.toList ++ [r.prg, BitVec.ofNat 8 (codeOf r.mirror).toNat, BitVec.ofNat 8 r.irqEnable.toNat] ++
    littleEndian 2 r.irqCounter.toNat ++ littleEndian 2 r.irqLatch.toNat

/-- The MMC2 and MMC4 payload (R368). -/
def mmcSaved (r : MmcRegs) : List Byte :=
  [r.prg, r.chrFd0, r.chrFe0, r.chrFd1, r.chrFe1, r.latch0, r.latch1, BitVec.ofNat 8 (codeOf r.mirror).toNat]

/-- The SUNSOFT payload (R368). -/
def sunsoftSaved (r : SunsoftRegs) : List Byte := r.chr.toList ++ r.nt.toList ++ [r.ntctl, r.prg]

/-- A square channel's payload (R368). -/
def squareSaved (ch : SquareChannel) : List Byte :=
  ch.regs.toList ++
    [BitVec.ofNat 8 ch.update.toNat, BitVec.ofNat 8 ch.key.toNat, BitVec.ofNat 8 ch.enabled.toNat, ch.length,
      BitVec.ofNat 8 ch.envVol.toNat, BitVec.ofNat 8 ch.dutyPos.toNat] ++
    littleEndian 2 ch.release.toNat ++ littleEndian 8 ch.envPhase ++ littleEndian 8 ch.lenPhase ++
    littleEndian 8 ch.sweepPhase ++ littleEndian 8 ch.wavePhase

/-- The saw channel's payload (R368). -/
def sawSaved (ch : SawChannel) : List Byte :=
  ch.regs.toList ++
    [BitVec.ofNat 8 ch.update.toNat, BitVec.ofNat 8 ch.key.toNat, BitVec.ofNat 8 ch.stepPos.toNat, ch.acc] ++
    littleEndian 2 ch.release.toNat ++ littleEndian 8 ch.wavePhase

/-- The mapper payload of a variant. -/
def mapperSaved (s : State) : List Byte :=
  match s.active with
  | .none => []
  | .bandai => bandaiSaved s.bandai
  | .mmc2 => mmcSaved s.mmc
  | .mmc4 => mmcSaved s.mmc
  | .sunsoft => sunsoftSaved s.sunsoft

/-- The audio payload of an option. -/
def audioSaved (s : State) : List Byte :=
  match s.cart.audioOption with
  | .none => []
  | .square => squareSaved s.sq0 ++ squareSaved s.sq1 ++ [s.da]
  | .saw => sawSaved s.saw

/-- The ranges LOAD checks in a mapper payload: byte index, least and greatest legal value (R371). -/
def mapperRanges (m : Active) : List (Nat × Nat × Nat) :=
  match m with
  | .none => []
  | .bandai => [(9, 0, 3), (10, 0, 1)]
  | .mmc2 => [(5, 0xFD, 0xFE), (6, 0xFD, 0xFE), (7, 0, 3)]
  | .mmc4 => [(5, 0xFD, 0xFE), (6, 0xFD, 0xFE), (7, 0, 3)]
  | .sunsoft => []

/-- The ranges LOAD checks in an audio payload (R371). -/
def audioRanges (o : AudioOption) : List (Nat × Nat × Nat) :=
  match o with
  | .none => []
  | .square =>
    [(4, 0, 15), (5, 0, 1), (6, 0, 1), (8, 0, 15), (9, 0, 7),
     (48, 0, 15), (49, 0, 1), (50, 0, 1), (52, 0, 15), (53, 0, 7)]
  | .saw => [(3, 0, 7), (4, 0, 1), (5, 0, 13)]

/-- Length of the mapper payload (R368). -/
def mapperSavedLen (m : Active) : Nat :=
  match m with
  | .none => 0
  | .bandai => 15
  | .mmc2 => 8
  | .mmc4 => 8
  | .sunsoft => 8

/-- Length of the audio payload (R368). -/
def audioSavedLen (o : AudioOption) : Nat :=
  match o with
  | .none => 0
  | .square => 89
  | .saw => 17

/-- A stream LOAD accepts in this configuration: long enough, every field in range (R369, R371). -/
def streamLegal (s : State) : Bool :=
  decide (mapperSavedLen s.active + audioSavedLen s.cart.audioOption ≤ s.stream.length) &&
  (mapperRanges s.active).all (fun r => decide (r.2.1 ≤ (s.stream.getD r.1 0).toNat ∧ (s.stream.getD r.1 0).toNat ≤ r.2.2)) &&
  (audioRanges s.cart.audioOption).all (fun r =>
    let b := (s.stream.getD (mapperSavedLen s.active + r.1) 0).toNat
    decide (r.2.1 ≤ b ∧ b ≤ r.2.2))

/-! ## Audio laws -/

/-- One envelope clock (45_audio.md R322): down by one, wrapping from 0 to 15 with the loop on, staying at 0 without. -/
def envelopeClock (loop : Bool) (vol : Nat) : Nat :=
  if vol = 0 then (if loop then 15 else 0) else vol - 1

/-- `k` envelope clocks. -/
def envelopeClocks (loop : Bool) (k vol : Nat) : Nat :=
  match k with
  | 0 => vol
  | k + 1 => envelopeClocks loop k (envelopeClock loop vol)

end Sys2Proof.Machine
end

