-- ==== Sys2Proof/Certificates/Slice0/Obligations.lean ====
section
/-! DEFINITION. The statements for the provers. Each says what the spec says of an instruction or of the whole block, for every
state and every operand. -/

section

open Sys2Proof Sys2Proof.Machine

/-! ## BANDAI (40_bandai.md) -/

/-- R131: ports 0 to 7 store V and select the 1 KiB page V, wrapped to the cartridge's pages. Nothing else changes. -/
def Obligations.BandaiChrSelect : Prop :=
  ∀ (s : State) (a : Addr) (v : Byte), s.active = .bandai → CartOk s →
    ∀ p ∈ ([(.bandaiChr0 a v, 0), (.bandaiChr1 a v, 1), (.bandaiChr2 a v, 2), (.bandaiChr3 a v, 3),
        (.bandaiChr4 a v, 4), (.bandaiChr5 a v, 5), (.bandaiChr6 a v, 6), (.bandaiChr7 a v, 7)] : List (Instr × Fin 8)),
      exec p.1 s = .next { s.clearReport with
        bandai := { s.bandai with chr := s.bandai.chr.set p.2.val v p.2.isLt }
        view := { s.view with
          chrSlot := s.view.chrSlot.set p.2.val (v.toNat % (8 * s.cart.chrPages.toNat)) p.2.isLt } }

/-- R132, R171, R214: each variant's PRG register stores V and selects the page V, wrapped: 16 KiB at $8000 on BANDAI, MMC4
and SUNSOFT, 8 KiB at $8000 on MMC2. The other windows keep their pages, which on a pushed view are the last ones. -/
def Obligations.PrgSelect : Prop :=
  ∀ (s : State) (a : Addr) (v : Byte), CartOk s →
    (s.active = .bandai → exec (.bandaiPrg a v) s = .next { s.clearReport with
      bandai := { s.bandai with prg := v }
      view := { s.view with prgSlot := withLow16 (v.toNat % s.cart.prgPages.toNat) s.view.prgSlot } }) ∧
    (s.active = .mmc2 → exec (.mmc2Prg8 a v) s = .next { s.clearReport with
      mmc := { s.mmc with prg := v }
      view := { s.view with prgSlot := s.view.prgSlot.set 0 (v.toNat % (2 * s.cart.prgPages.toNat)) } }) ∧
    (s.active = .mmc4 → exec (.mmc4Prg16 a v) s = .next { s.clearReport with
      mmc := { s.mmc with prg := v }
      view := { s.view with prgSlot := withLow16 (v.toNat % s.cart.prgPages.toNat) s.view.prgSlot } }) ∧
    (s.active = .sunsoft → exec (.sunsoftPrg a v) s = .next { s.clearReport with
      sunsoft := { s.sunsoft with prg := v }
      view := { s.view with prgSlot := withLow16 (v.toNat % s.cart.prgPages.toNat) s.view.prgSlot } }) ∧
    (s.active ≠ .none → ViewOk s → s.view.prgSlot[2] = 2 * s.cart.prgPages.toNat - 2 ∧
      s.view.prgSlot[3] = 2 * s.cart.prgPages.toNat - 1)

/-- R133, R176: the mirroring ports store the mode and select its four name tables. BANDAI takes V[1:0] as the mode's code,
MMC2 and MMC4 take V[0]. -/
def Obligations.MirroringWrites : Prop :=
  ∀ (s : State) (a : Addr) (v : Byte) (m : MirrorMode),
    (s.active = .bandai →
      (v.toNat % 4, m) ∈ ([(0, .vertical), (1, .horizontal), (2, .singleLow), (3, .singleHigh)] : List (Nat × MirrorMode)) →
      exec (.bandaiMirror a v) s = .next { s.clearReport with
        bandai := { s.bandai with mirror := m }
        view := { s.view with ntSrc := ciramTables m } }) ∧
    (s.active = .mmc2 ∨ s.active = .mmc4 →
      (v.toNat % 2, m) ∈ ([(0, .vertical), (1, .horizontal)] : List (Nat × MirrorMode)) →
      exec (.mmcMirror a v) s = .next { s.clearReport with
        mmc := { s.mmc with mirror := m }
        view := { s.view with ntSrc := ciramTables m } })

/-- R134: port 10 sets the enable from V[0] and loads the counter from the latch, whatever V[0] is. With an empty latch and
V[0] = 1 the next commit fires. -/
def Obligations.BandaiIrqControl : Prop :=
  ∀ (s : State) (a : Addr) (v : Byte), s.active = .bandai →
    ∃ t, exec (.bandaiIrqctl a v) s = .next t ∧
      t = { s.clearReport with
        bandai := { s.bandai with irqEnable := decide (v.toNat % 2 = 1), irqCounter := s.bandai.irqLatch } } ∧
      (s.bandai.irqLatch = 0 → v.toNat % 2 = 1 →
        ∀ line, ∃ u, exec (.scanlineStart line) t = .next u ∧ u.out.irqEdge = true)

/-- R135, R136: ports 11 and 12 write the low and the high byte of the latch. The counter does not move. -/
def Obligations.BandaiLatchBytes : Prop :=
  ∀ (s : State) (a : Addr) (v : Byte), s.active = .bandai →
    exec (.bandaiLatchlo a v) s = .next { s.clearReport with
      bandai := { s.bandai with
        irqLatch := BitVec.ofNat 16 (s.bandai.irqLatch.toNat / 256 * 256 + v.toNat) } } ∧
    exec (.bandaiLatchhi a v) s = .next { s.clearReport with
      bandai := { s.bandai with
        irqLatch := BitVec.ofNat 16 (v.toNat * 256 + s.bandai.irqLatch.toNat % 256) } }

/-- R137, R138: BANDAI's ports 13 to 15 have no effect. The same holds of MMC2's and MMC4's unclaimed windows (R177) and of
SAW_CHIP's register 3 (R306). -/
def Obligations.IgnoredWrites : Prop :=
  ∀ (s : State) (a : Addr) (v : Byte),
    (s.active = .bandai → ∀ i ∈ ([.bandaiPort13 a v, .bandaiPort14 a v, .bandaiPort15 a v] : List Instr),
      exec i s = .next s.clearReport) ∧
    (s.active = .mmc2 ∨ s.active = .mmc4 → exec (.mmcUnclaimed a v) s = .next s.clearReport) ∧
    (s.active ≠ .none → s.cart.audioOption = .saw → exec (.sawR3 a v) s = .next s.clearReport)

/-! ## MMC2 and MMC4 (41_mmc2_mmc4.md) -/

/-- R172 to R175: the four CHR registers store V. The page of the half is pushed only if the half's latch selects the
register that was written. -/
def Obligations.MmcChrRegisters : Prop :=
  ∀ (s : State) (a : Addr) (v : Byte), s.active = .mmc2 ∨ s.active = .mmc4 → CartOk s →
    exec (.mmcChrfd0 a v) s = .next { s.clearReport with
      mmc := { s.mmc with chrFd0 := v }
      view := if s.mmc.latch0 = 0xFD then
          { s.view with chrSlot := withChrHalf 0 (v.toNat % (2 * s.cart.chrPages.toNat)) s.view.chrSlot }
        else s.view } ∧
    exec (.mmcChrfe0 a v) s = .next { s.clearReport with
      mmc := { s.mmc with chrFe0 := v }
      view := if s.mmc.latch0 = 0xFE then
          { s.view with chrSlot := withChrHalf 0 (v.toNat % (2 * s.cart.chrPages.toNat)) s.view.chrSlot }
        else s.view } ∧
    exec (.mmcChrfd1 a v) s = .next { s.clearReport with
      mmc := { s.mmc with chrFd1 := v }
      view := if s.mmc.latch1 = 0xFD then
          { s.view with chrSlot := withChrHalf 1 (v.toNat % (2 * s.cart.chrPages.toNat)) s.view.chrSlot }
        else s.view } ∧
    exec (.mmcChrfe1 a v) s = .next { s.clearReport with
      mmc := { s.mmc with chrFe1 := v }
      view := if s.mmc.latch1 = 0xFE then
          { s.view with chrSlot := withChrHalf 1 (v.toNat % (2 * s.cart.chrPages.toNat)) s.view.chrSlot }
        else s.view }

/-- R183: a write to the CHR register of the latch state that is not selected leaves the view, and the stored value
reaches the view at the next PPU_LATCH of that state's tile in that half. -/
def Obligations.LatchDeferredWrites : Prop :=
  ∀ (s : State) (a : Addr) (v : Byte) (p : PpuAddr), s.active = .mmc2 ∨ s.active = .mmc4 → CartOk s →
    ∀ q ∈ ([(.mmcChrfd0 a v, s.mmc.latch0, 0, 0xFD), (.mmcChrfe0 a v, s.mmc.latch0, 0, 0xFE),
        (.mmcChrfd1 a v, s.mmc.latch1, 1, 0xFD), (.mmcChrfe1 a v, s.mmc.latch1, 1, 0xFE)] :
          List (Instr × Byte × Nat × Byte)),
      q.2.1 ≠ q.2.2.2 → p.toNat / 4096 = q.2.2.1 → p.toNat / 16 % 256 = q.2.2.2.toNat →
      ∃ t u, exec q.1 s = .next t ∧ t.view = s.view ∧ exec (.ppuLatch p) t = .next u ∧
        u.view = { s.view with
          chrSlot := withChrHalf q.2.2.1 (v.toNat % (2 * s.cart.chrPages.toNat)) s.view.chrSlot }

/-- R180: PPU_LATCH of tile $FD or $FE below $2000 on MMC2 or MMC4 sets the half's latch to that tile and pushes the page of
the register the tile selects. Any other PPU_LATCH has no effect, and one that names the latch's value changes nothing. -/
def Obligations.PpuLatchMovesLatch : Prop :=
  ∀ (s : State) (p : PpuAddr), s.active ≠ .none → CartOk s →
    (s.active = .mmc2 ∨ s.active = .mmc4 →
      ∀ q ∈ ([(0, 0xFD, { s.mmc with latch0 := 0xFD }, s.mmc.chrFd0), (0, 0xFE, { s.mmc with latch0 := 0xFE }, s.mmc.chrFe0),
          (1, 0xFD, { s.mmc with latch1 := 0xFD }, s.mmc.chrFd1), (1, 0xFE, { s.mmc with latch1 := 0xFE }, s.mmc.chrFe1)] :
            List (Nat × Nat × MmcRegs × Byte)),
        p.toNat / 4096 = q.1 → p.toNat / 16 % 256 = q.2.1 →
        exec (.ppuLatch p) s = .next { s.clearReport with
          mmc := q.2.2.1
          view := { s.view with
            chrSlot := withChrHalf q.1 (q.2.2.2.toNat % (2 * s.cart.chrPages.toNat)) s.view.chrSlot } }) ∧
    (s.active = .bandai ∨ s.active = .sunsoft ∨ 0x2000 ≤ p.toNat ∨
        (p.toNat / 16 % 256 ≠ 0xFD ∧ p.toNat / 16 % 256 ≠ 0xFE) →
      exec (.ppuLatch p) s = .next s.clearReport) ∧
    (s.active = .mmc2 ∨ s.active = .mmc4 → ViewOk s →
      ∀ q ∈ ([(0, s.mmc.latch0), (1, s.mmc.latch1)] : List (Nat × Byte)), q.2 = 0xFD ∨ q.2 = 0xFE →
        p.toNat / 4096 = q.1 → p.toNat / 16 % 256 = q.2.toNat → exec (.ppuLatch p) s = .next s.clearReport)

/-! ## SUNSOFT (42_sunsoft.md) -/

/-- R211: windows $8 to $B store V and select the 2 KiB page V, wrapped, for their two blocks. -/
def Obligations.SunsoftChrSelect : Prop :=
  ∀ (s : State) (a : Addr) (v : Byte), s.active = .sunsoft → CartOk s →
    ∀ p ∈ ([(.sunsoftChr0 a v, 0), (.sunsoftChr1 a v, 1), (.sunsoftChr2 a v, 2), (.sunsoftChr3 a v, 3)] :
        List (Instr × Fin 4)),
      exec p.1 s = .next { s.clearReport with
        sunsoft := { s.sunsoft with chr := s.sunsoft.chr.set p.2.val v p.2.isLt }
        view := { s.view with
          chrSlot := withChrPair p.2.val (v.toNat % (4 * s.cart.chrPages.toNat)) s.view.chrSlot } }

/-- R212, R213, R215: the name-table banks and the control store V and select the four name tables by R215. While the
control's bit 4 is 0, a bank write leaves a pushed view as it is. -/
def Obligations.SunsoftNameTables : Prop :=
  ∀ (s : State) (a : Addr) (v : Byte), s.active = .sunsoft → CartOk s →
    (∀ p ∈ ([(.sunsoftNt0 a v, 0), (.sunsoftNt1 a v, 1)] : List (Instr × Fin 2)),
      ∃ t, exec p.1 s = .next t ∧
        t = { s.clearReport with
          sunsoft := { s.sunsoft with nt := s.sunsoft.nt.set p.2.val v p.2.isLt }
          view := { s.view with
            ntSrc := sunsoftTables (8 * s.cart.chrPages.toNat) (s.sunsoft.nt.set p.2.val v p.2.isLt) s.sunsoft.ntctl } } ∧
        (ViewOk s → s.sunsoft.ntctl.toNat / 16 % 2 = 0 → t.view = s.view)) ∧
    exec (.sunsoftNtctl a v) s = .next { s.clearReport with
      sunsoft := { s.sunsoft with ntctl := v }
      view := { s.view with ntSrc := sunsoftTables (8 * s.cart.chrPages.toNat) s.sunsoft.nt v } }

/-! ## The hooks (43_irq.md) -/

/-- R240, R241: a commit lowers an enabled BANDAI counter by D, not below 0, and raises one edge and disables the counter
exactly if the counter was at most D. The line is ignored, and a disabled counter does not move. -/
def Obligations.ScanlineCommit : Prop :=
  ∀ (s : State) (line : BitVec 9), s.active = .bandai →
    (s.bandai.irqEnable = false → exec (.scanlineStart line) s = .next s.clearReport) ∧
    (s.bandai.irqEnable = true →
      exec (.scanlineStart line) s = .next { s.clearReport with
        bandai := { s.bandai with
          irqCounter := BitVec.ofNat 16 (s.bandai.irqCounter.toNat - s.args.pseudoClocks)
          irqEnable := decide (s.args.pseudoClocks < s.bandai.irqCounter.toNat) }
        out := { irqEdge := decide (s.bandai.irqCounter.toNat ≤ s.args.pseudoClocks) } })

/-- R242, R244: PREDICT changes nothing but its answer. It is TRIGGER exactly on BANDAI with the counter enabled and at most
D. SCANLINE_START on the other variants changes nothing. -/
def Obligations.PredictAnswers : Prop :=
  ∀ (s : State) (line : BitVec 9), s.active ≠ .none →
    exec (.predict line) s = .next { s.clearReport with
      out := { predict := some (if s.active = .bandai ∧ s.bandai.irqEnable = true ∧
          s.bandai.irqCounter.toNat ≤ s.args.pseudoClocks then .trigger else .noTrigger) } } ∧
    (s.active ≠ .bandai → exec (.scanlineStart line) s = .next s.clearReport)

/-- R243: PREDICT answers TRIGGER exactly when SCANLINE_START on the same state raises an edge, and leaves the state. -/
def Obligations.PredictMatchesCommit : Prop :=
  ∀ (s : State) (line line' : BitVec 9), s.active ≠ .none →
    ∃ t u, exec (.predict line) s = .next t ∧ exec (.scanlineStart line') s = .next u ∧
      (t.out.predict = some .trigger ↔ u.out.irqEdge = true) ∧ { t with out := s.out } = s

/-- R247: from an enabled BANDAI counter C, whatever runs in between that does not write the counter (no port-10 write,
LOAD, RESET or INIT), the commit that raises the edge is the k-th with k = max 1 of C / D rounded up, and no other. A
disabled counter raises none until port 10 is written with V[0] = 1. The spec's second sentence does not name LOAD, which
can also enable the counter (R369), so it is excepted here too. -/
def Obligations.CommitLookAhead : Prop :=
  (∀ (s t : State) (l : List Instr) (line : BitVec 9), s.active = .bandai → s.bandai.irqEnable = true →
    1 ≤ s.args.pseudoClocks → (∀ i ∈ l, ¬i.Rearms) → runInstrs l s = some t →
    ∃ u, exec (.scanlineStart line) t = .next u ∧
      (u.out.irqEdge = true ↔
        commitCount l + 1 =
          max 1 ((s.bandai.irqCounter.toNat + s.args.pseudoClocks - 1) / s.args.pseudoClocks))) ∧
  (∀ (s t u : State) (l : List Instr) (line : BitVec 9), s.bandai.irqEnable = false →
    (∀ i ∈ l, ¬i.MayEnable) → runInstrs l s = some t → exec (.scanlineStart line) t = .next u →
    u.out.irqEdge = false)

/-! ## The background renderer (44_bg_renderer.md) -/

/-- R276 and R277. With the background off, LINE is all 0. With a failed size check, nothing changes but LINE, whose contents
nothing is said of, and the model's own count of free values (log entry 8). -/
def Obligations.RenderWithoutTiles : Prop :=
  ∀ (s : State) (v : BitVec 15) (fineX : BitVec 3) (bgSel leftClip : Bool), s.active ≠ .none →
    exec (.renderLine v fineX bgSel leftClip false true) s =
      .next { s.clearReport with line := Vector.replicate 256 0 } ∧
    ∀ bgEnabled, ∃ t, exec (.renderLine v fineX bgSel leftClip bgEnabled false) s = .next t ∧
      { t with line := s.line, freeCount := s.freeCount } = s.clearReport

/-- R262 to R273 on a line on which no latch moves: every pixel in arithmetic, and nothing else changes. -/
def Obligations.RenderPixels : Prop :=
  ∀ (s : State) (v : BitVec 15) (fineX : BitVec 3) (bgSel leftClip : Bool), s.active ≠ .none →
    s.active = .bandai ∨ s.active = .sunsoft ∨ lineTriggers s v = [] →
    exec (.renderLine v fineX bgSel leftClip true true) s =
      .next { s.clearReport with line := Vector.ofFn fun x => linePixel s v fineX bgSel leftClip x.val }

/-- R269: RENDER_LINE changes what the PPU_LATCH transactions of its trigger tiles change, in the order of the tiles, and
each pixel is drawn in the state after the calls up to and including its own tile's. -/
def Obligations.RenderLatchBeforeComposite : Prop :=
  ∀ (s : State) (v : BitVec 15) (fineX : BitVec 3) (bgSel leftClip : Bool), s.active ≠ .none →
    ∃ t u, exec (.renderLine v fineX bgSel leftClip true true) s = .next t ∧
      runInstrs (latchCalls s v bgSel 33) s.clearReport = some u ∧ { t with line := s.line } = u ∧
      ∀ x : Fin 256, ∃ w,
        runInstrs (latchCalls s v bgSel ((x.val + fineX.toNat) / 8 + 1)) s.clearReport = some w ∧
        t.line[x.val] = linePixel w v fineX bgSel leftClip x.val

/-- R260, R261: a rendered line holds values 0 to 15, each 0 or group * 4 + colour with colour 1 to 3. Beside LINE only the
latches and chr_slot may change, and those only on MMC2 and MMC4. -/
def Obligations.RenderRangeAndFrame : Prop :=
  ∀ (s : State) (v : BitVec 15) (fineX : BitVec 3) (bgSel leftClip bgEnabled : Bool), s.active ≠ .none →
    ∃ t, exec (.renderLine v fineX bgSel leftClip bgEnabled true) s = .next t ∧
      (∀ x : Fin 256, t.line[x.val] = 0 ∨
        ∃ group colour : Nat, group ≤ 3 ∧ 1 ≤ colour ∧ colour ≤ 3 ∧ t.line[x.val].toNat = group * 4 + colour) ∧
      t = { s.clearReport with
        line := t.line
        mmc := { s.mmc with latch0 := t.mmc.latch0, latch1 := t.mmc.latch1 }
        view := { s.view with chrSlot := t.view.chrSlot } } ∧
      (s.active = .bandai ∨ s.active = .sunsoft → t.mmc = s.mmc ∧ t.view = s.view)

/-- R279: after the line, the latch of the background half holds the last trigger tile, or its old value if the line has
none. The other half's latch does not change. -/
def Obligations.RenderLatchAfterLine : Prop :=
  ∀ (s : State) (v : BitVec 15) (fineX : BitVec 3) (bgSel leftClip : Bool), s.active = .mmc2 ∨ s.active = .mmc4 →
    ∃ t, exec (.renderLine v fineX bgSel leftClip true true) s = .next t ∧
      t.mmc.latch0 = (if bgSel then s.mmc.latch0 else (lineTriggers s v).getLast?.getD s.mmc.latch0) ∧
      t.mmc.latch1 = (if bgSel then (lineTriggers s v).getLast?.getD s.mmc.latch1 else s.mmc.latch1)

/-- R273: with left clipping the first 8 pixels are 0 and nothing else differs from the unclipped line, the latches and the
view included. -/
def Obligations.RenderLeftClip : Prop :=
  ∀ (s : State) (v : BitVec 15) (fineX : BitVec 3) (bgSel bgEnabled : Bool), s.active ≠ .none →
    ∃ t u, exec (.renderLine v fineX bgSel true bgEnabled true) s = .next t ∧
      exec (.renderLine v fineX bgSel false bgEnabled true) s = .next u ∧
      { t with line := u.line } = u ∧
      ∀ x : Fin 256, t.line[x.val] = if x.val < 8 then 0 else u.line[x.val]

/-! ## Audio (45_audio.md) -/

/-- R308: a register write stores V and its dirty bit. Nothing else changes. -/
def Obligations.AudioRegisterWrites : Prop :=
  ∀ (s : State) (a : Addr) (v : Byte), s.active ≠ .none →
    (s.cart.audioOption = .square →
      (∀ p ∈ ([(.sq0R0 v, 0), (.sq0R1 v, 1), (.sq0R2 v, 2), (.sq0R3 v, 3)] : List (Instr × Fin 4)),
        exec p.1 s = .next { s.clearReport with
          sq0 := { s.sq0 with
            regs := s.sq0.regs.set p.2.val v p.2.isLt
            update := s.sq0.update ||| BitVec.ofNat 4 (2 ^ p.2.val) } }) ∧
      (∀ p ∈ ([(.sq1R0 v, 0), (.sq1R1 v, 1), (.sq1R2 v, 2), (.sq1R3 v, 3)] : List (Instr × Fin 4)),
        exec p.1 s = .next { s.clearReport with
          sq1 := { s.sq1 with
            regs := s.sq1.regs.set p.2.val v p.2.isLt
            update := s.sq1.update ||| BitVec.ofNat 4 (2 ^ p.2.val) } })) ∧
    (s.cart.audioOption = .saw →
      ∀ p ∈ ([(.sawR0 a v, 0), (.sawR1 a v, 1), (.sawR2 a v, 2)] : List (Instr × Fin 3)),
        exec p.1 s = .next { s.clearReport with
          saw := { s.saw with
            regs := s.saw.regs.set p.2.val v p.2.isLt
            update := s.saw.update ||| BitVec.ofNat 3 (2 ^ p.2.val) } })

/-- R307, R309: SQ.ENABLE sets each channel's enable from V[0] and V[1] at once, and a disabled channel loses its length and
is keyed off. SQ.DA stores V at once. -/
def Obligations.SquareEnableAndDirectAudio : Prop :=
  ∀ (s : State) (v : Byte), s.active ≠ .none → s.cart.audioOption = .square →
    exec (.sqEnable v) s = .next { s.clearReport with
      sq0 := if v.toNat % 2 = 1 then { s.sq0 with enabled := true }
        else { s.sq0 with
          enabled := false
          length := 0
          key := false
          release := if s.sq0.key then s.args.releaseStart else s.sq0.release }
      sq1 := if v.toNat / 2 % 2 = 1 then { s.sq1 with enabled := true }
        else { s.sq1 with
          enabled := false
          length := 0
          key := false
          release := if s.sq1.key then s.args.releaseStart else s.sq1.release } } ∧
    exec (.sqDa v) s = .next { s.clearReport with da := v }

/-- R320, R335, R336: SAMPLE answers the sum of the chip's channels and the unshifted DA value, and steps each channel once. -/
def Obligations.SampleAnswers : Prop :=
  ∀ s : State, s.active ≠ .none →
    (s.cart.audioOption = .none → exec .sample s = .next { s.clearReport with out := { sample := some 0 } }) ∧
    (s.cart.audioOption = .square → exec .sample s = .next { s.clearReport with
      sq0 := (squareStep s.args s.sq0).1
      sq1 := (squareStep s.args s.sq1).1
      out := { sample := some ((squareStep s.args s.sq0).2 + (squareStep s.args s.sq1).2 + s.da.toNat) } }) ∧
    (s.cart.audioOption = .saw → exec .sample s = .next { s.clearReport with
      saw := (sawStep s.args s.saw).1
      out := { sample := some (sawStep s.args s.saw).2 } })

/-- R321, R328, R332: the order of a channel's stages, where a silent channel stops, that a muted square does not advance its
wave, and the release step: with the key off and the counter above 0 it falls by one, and otherwise nothing moves. -/
def Obligations.ChannelStages : Prop :=
  (∀ (args : ModelArgs) (ch g c : SquareChannel), g = squareGate args ch →
    c = squareSweep args (squareLength args (squareEnvelope args g)) →
    (g.key = false → g.release = 0 → squareStep args ch = (g, 0)) ∧
    (g.key = true ∨ g.release ≠ 0 → squareMuted args c.d = true → squareStep args ch = (squareRelease c, 0)) ∧
    (g.key = true ∨ g.release ≠ 0 → squareMuted args c.d = false →
      squareStep args ch = (squareRelease (squareWave args c), squareOut args (squareWave args c)))) ∧
  (∀ (args : ModelArgs) (ch g : SawChannel), g = sawGate args ch →
    (g.key = false → g.release = 0 → sawStep args ch = (g, 0)) ∧
    (g.key = true ∨ g.release ≠ 0 →
      sawStep args ch = (sawRelease (sawWave args g), sawOut args (sawWave args g)))) ∧
  (∀ ch : SquareChannel,
    (ch.key = false → 0 < ch.release.toNat → ∃ r, r.toNat + 1 = ch.release.toNat ∧
      squareRelease ch = { ch with release := r }) ∧
    (ch.key = true ∨ ch.release = 0 → squareRelease ch = ch)) ∧
  ∀ ch : SawChannel,
    (ch.key = false → 0 < ch.release.toNat → ∃ r, r.toNat + 1 = ch.release.toNat ∧
      sawRelease ch = { ch with release := r }) ∧
    (ch.key = true ∨ ch.release = 0 → sawRelease ch = ch)

/-- R310, R312: with nothing pending the gate does nothing. Otherwise it decodes and clears the mask, keys on exactly for a
pending register 3 while enabled, and restarts the sweep phase for a pending register 1. -/
def Obligations.SquareRecompute : Prop :=
  ∀ (args : ModelArgs) (ch : SquareChannel),
    (ch.update = 0 → squareGate args ch = ch) ∧
    (ch.update ≠ 0 → ch.update.toNat / 8 % 2 = 1 → ch.enabled = true →
      squareGate args ch = { ch with
        d := squareDecode args ch.regs
        update := 0
        key := true
        length := args.lengthTable[ch.regs[3].toNat / 8]'(by omega)
        envVol := 15
        dutyPos := 0
        release := 0
        envPhase := 0
        lenPhase := 0
        sweepPhase := 0
        wavePhase := 0 }) ∧
    (ch.update ≠ 0 → ch.update.toNat / 8 % 2 = 0 ∨ ch.enabled = false →
      squareGate args ch = { ch with
        d := squareDecode args ch.regs
        update := 0
        sweepPhase := if ch.update.toNat / 2 % 2 = 1 then 0 else ch.sweepPhase })

/-- R311, R302, R300: the decoded fields in arithmetic, each step at least 1, and the step functions: the given ones, else
the defaults, which follow ENV_UNIT and CPS_SHIFT. -/
def Obligations.SquareDecodeFields : Prop :=
  (∀ (args : ModelArgs) (r0 r1 r2 r3 : Byte), ∃ d, d = squareDecode args #v[r0, r1, r2, r3] ∧
    d.duty.toNat = r0.toNat / 64 ∧ d.loop = decide (r0.toNat / 32 % 2 = 1) ∧
    d.const = decide (r0.toNat / 16 % 2 = 1) ∧ d.vol.toNat = r0.toNat % 16 ∧
    d.envStep = max 1 (args.envStep[r0.toNat % 16]'(by omega)) ∧
    d.sweepEn = decide (r1.toNat / 128 = 1) ∧
    d.sweepStep = max 1 (args.sweepStep[r1.toNat / 16 % 8]'(by omega)) ∧
    d.negate = decide (r1.toNat / 8 % 2 = 1) ∧ d.shift.toNat = r1.toNat % 8 ∧
    d.period.toNat = r3.toNat % 8 * 256 + r2.toNat ∧
    d.waveStep = (r3.toNat % 8 * 256 + r2.toNat + 1) * 2 * 2 ^ args.cpsShift) ∧
  ∀ (args : ModelArgs) (r : Fin 16) (p : Fin 8),
    (args.envStepGiven = none → args.envStep[r.val] = (r.val + 1) * args.envUnit * 2 ^ args.cpsShift) ∧
    (∀ f, args.envStepGiven = some f → args.envStep = f) ∧
    (args.lenStepGiven = none → args.lenStep = 2 * args.envUnit * 2 ^ args.cpsShift) ∧
    (∀ n, args.lenStepGiven = some n → args.lenStep = n) ∧
    (args.sweepStepGiven = none → args.sweepStep[p.val] = (p.val + 1) * 2 * args.envUnit * 2 ^ args.cpsShift) ∧
    (∀ f, args.sweepStepGiven = some f → args.sweepStep = f)

/-- R322: the closed form of the envelope is that many single clocks, wrapping from 0 to 15 with the loop on and stopping at
0 without. -/
def Obligations.EnvelopeClosedForm : Prop :=
  ∀ (args : ModelArgs) (ch : SquareChannel),
    (squareEnvelope args ch).envVol.toNat =
        envelopeClocks ch.d.loop ((ch.envPhase + args.cps) / ch.d.envStep) ch.envVol.toNat ∧
      squareEnvelope args ch = { ch with
        envPhase := (ch.envPhase + args.cps) % ch.d.envStep
        envVol := (squareEnvelope args ch).envVol }

/-- R323: the length counter moves only while the key is on and the loop off. It keys the channel off in the sample in which
the accumulated clocks reach it. -/
def Obligations.LengthCounter : Prop :=
  ∀ (args : ModelArgs) (ch : SquareChannel) (m : Nat), m = (ch.lenPhase + args.cps) / max 1 args.lenStep →
    (ch.key = false ∨ ch.d.loop = true → squareLength args ch = ch) ∧
    (ch.key = true → ch.d.loop = false → ch.length.toNat ≤ m →
      squareLength args ch = { ch with
        lenPhase := (ch.lenPhase + args.cps) % max 1 args.lenStep
        length := 0
        key := false
        release := args.releaseStart }) ∧
    (ch.key = true → ch.d.loop = false → m < ch.length.toNat →
      squareLength args ch = { ch with
        lenPhase := (ch.lenPhase + args.cps) % max 1 args.lenStep
        length := (squareLength args ch).length } ∧
      (squareLength args ch).length.toNat = ch.length.toNat - m)

/-- R324: when the sweep runs and how many clocks it takes. One sweep clock moves the period by the period shifted right, up or down, writes it back into registers 2 and 3
and leaves the dirty mask. It stops for good at the first clock below the floor or above $7FF: k clocks are k single ones. -/
def Obligations.SweepClock : Prop :=
  ∀ (args : ModelArgs) (ch : SquareChannel) (p : Nat),
    p = (if ch.d.negate then ch.d.period.toNat - ch.d.period.toNat / 2 ^ ch.d.shift.toNat
      else ch.d.period.toNat + ch.d.period.toNat / 2 ^ ch.d.shift.toNat) →
    squareSweep args ch =
      (if args.hasSweep = true ∧ ch.d.sweepEn = true ∧ ch.d.shift ≠ 0 then
        sweepClocks args ((ch.sweepPhase + args.cps) / ch.d.sweepStep)
          { ch with sweepPhase := (ch.sweepPhase + args.cps) % ch.d.sweepStep }
      else ch) ∧
    (ch.d.period.toNat < args.periodFloor ∨ 0x7FF < p → ∀ k, sweepClocks args k ch = ch) ∧
    (args.periodFloor ≤ ch.d.period.toNat → p ≤ 0x7FF → ∃ c, sweepClocks args 1 ch = c ∧
      c.regs[3].toNat % 8 * 256 + c.regs[2].toNat = p ∧ c.regs[3].toNat / 8 = ch.regs[3].toNat / 8 ∧
      c = { ch with
        regs := (ch.regs.set 2 c.regs[2]).set 3 c.regs[3]
        d := { ch.d with period := BitVec.ofNat 11 p, waveStep := (p + 1) * 2 * 2 ^ args.cpsShift } } ∧
      ∀ k, sweepClocks args (k + 1) ch = sweepClocks args k c)

/-- R300, R301, R325: a square is muted exactly if its period is below the floor or, in add mode, above the ceiling of its
shift. The table of R301 holds the largest periods whose sweep step up stays at most $7FF, so under it the second test is
whether that step would pass $7FF. -/
def Obligations.MuteAboveCeiling : Prop :=
  (∀ (shift : Fin 8) (p : Nat), p + p / 2 ^ shift.val ≤ 0x7FF ↔ p ≤ ceilingTable[shift.val]) ∧
  State.reset.args.ceiling = ceilingTable ∧
  (∀ (args : ModelArgs) (d : SquareDerived), squareMuted args d = true ↔
    d.period.toNat < args.periodFloor ∨
      (d.negate = false ∧ args.ceiling[d.shift.toNat]'(by omega) < d.period.toNat)) ∧
  ∀ (args : ModelArgs) (d : SquareDerived), args.ceiling = ceilingTable →
    (squareMuted args d = true ↔ d.period.toNat < args.periodFloor ∨
      (d.negate = false ∧ 0x7FF < d.period.toNat + d.period.toNat / 2 ^ d.shift.toNat))

/-- R326, R327, R332, R334: the wave's position and the level it selects, the saw's ticks and output, and the default output
curves with their constraints. -/
def Obligations.WaveAndOutput : Prop :=
  (∀ (args : ModelArgs) (ch : SquareChannel),
    squareWave args ch = { ch with
      wavePhase := (ch.wavePhase + args.cps) % ch.d.waveStep
      dutyPos := (squareWave args ch).dutyPos } ∧
    (squareWave args ch).dutyPos.toNat = (ch.dutyPos.toNat + (ch.wavePhase + args.cps) / ch.d.waveStep) % 8 ∧
    squareOut args ch =
      if args.dutyTable[ch.d.duty.toNat][ch.dutyPos.toNat] then
        outSq args (if ch.d.const then ch.d.vol.toNat else ch.envVol.toNat) ch.key ch.release.toNat
      else 0) ∧
  (∀ (args : ModelArgs) (ch : SawChannel),
    sawWave args ch = sawClocks ((ch.wavePhase + args.cps) / ch.d.waveStep)
      { ch with wavePhase := (ch.wavePhase + args.cps) % ch.d.waveStep } ∧
    sawClocks 0 ch = ch ∧ (∀ n, sawClocks (n + 1) ch = sawClocks n (sawClock ch)) ∧
    sawOut args ch = outSaw args (ch.acc.toNat / 8) ch.key ch.release.toNat) ∧
  (∀ (args : ModelArgs) (vol r : Nat) (key : Bool),
    outSq args 0 key r = 0 ∧ outSq args vol false 0 = 0 ∧ outSaw args vol false 0 = 0 ∧
    (args.outSq = .linear → outSq args vol true r = vol) ∧
    (args.outSaw = .linear → outSaw args vol true r = vol) ∧
    (args.outSq = .linear → args.releaseStart ≠ 0 → outSq args vol false r = vol * r / args.releaseStart.toNat) ∧
    (args.outSaw = .linear → args.releaseStart ≠ 0 → outSaw args vol false r = vol * r / args.releaseStart.toNat))

/-- R330, R331: the saw's recompute decodes the registers and keys the channel on or off by the enable bit. -/
def Obligations.SawRecompute : Prop :=
  ∀ (args : ModelArgs) (ch : SawChannel) (d : SawDerived), d = sawDecode args ch.regs →
    d.rate.toNat = ch.regs[0].toNat % 64 ∧ d.period.toNat = ch.regs[2].toNat % 16 * 256 + ch.regs[1].toNat ∧
    d.enable = decide (ch.regs[2].toNat / 128 = 1) ∧ d.waveStep = (d.period.toNat + 1) * 2 ^ args.cpsShift ∧
    (ch.update = 0 → sawGate args ch = ch) ∧
    (ch.update ≠ 0 → d.enable = true → ch.key = false → sawGate args ch =
      { ch with d := d, update := 0, key := true, stepPos := 0, acc := 0, wavePhase := 0, release := 0 }) ∧
    (ch.update ≠ 0 → d.enable = false → ch.key = true → sawGate args ch =
      { ch with d := d, update := 0, key := false, release := args.releaseStart }) ∧
    (ch.update ≠ 0 → d.enable = ch.key → sawGate args ch = { ch with d := d, update := 0 })

/-- R333: one tick of the saw, and the closed form of 14 or more ticks. -/
def Obligations.SawClockClosedForm : Prop :=
  ∀ ch : SawChannel, ch.stepPos.toNat ≤ 13 →
    (ch.stepPos.toNat + 1 = 14 → sawClock ch = { ch with stepPos := 0, acc := 0 }) ∧
    (ch.stepPos.toNat + 1 < 14 → ch.stepPos.toNat % 2 = 1 → sawClock ch =
      { ch with
        stepPos := BitVec.ofNat 4 (ch.stepPos.toNat + 1)
        acc := BitVec.ofNat 8 (ch.acc.toNat + ch.d.rate.toNat) }) ∧
    (ch.stepPos.toNat % 2 = 0 → sawClock ch = { ch with stepPos := BitVec.ofNat 4 (ch.stepPos.toNat + 1) }) ∧
    ∀ n q : Nat, 14 ≤ n → q = (ch.stepPos.toNat + n) % 14 →
      sawClocks n ch = { ch with stepPos := BitVec.ofNat 4 q, acc := BitVec.ofNat 8 (ch.d.rate.toNat * (q / 2)) }

/-- R342: after a SAMPLE each phase whose stage ran is below its step. -/
def Obligations.PhasesBoundedAfterSample : Prop :=
  ∀ s : State, s.active ≠ .none → AudioOk s → ∃ t, exec .sample s = .next t ∧
    (s.cart.audioOption = .square →
      ∀ p ∈ ([(squareGate s.args s.sq0, t.sq0), (squareGate s.args s.sq1, t.sq1)] :
          List (SquareChannel × SquareChannel)),
        p.1.key = true ∨ p.1.release ≠ 0 →
        p.2.envPhase < p.2.d.envStep ∧
        (p.1.key = true → p.2.d.loop = false → p.2.lenPhase < max 1 s.args.lenStep) ∧
        (s.args.hasSweep = true → p.2.d.sweepEn = true → p.2.d.shift ≠ 0 → p.2.sweepPhase < p.2.d.sweepStep) ∧
        (squareMuted s.args p.2.d = false → p.2.wavePhase < p.2.d.waveStep)) ∧
    (s.cart.audioOption = .saw → (sawGate s.args s.saw).key = true ∨ (sawGate s.args s.saw).release ≠ 0 →
      t.saw.wavePhase < t.saw.d.waveStep)

/-- R340: a second SAMPLE runs no recompute, so it keeps every derived constant but the period and the wave step, which a
sweep may move. -/
def Obligations.DerivedConstantsKept : Prop :=
  ∀ s t : State, exec .sample s = .next t →
    ∃ u, exec .sample t = .next u ∧
      (s.cart.audioOption = .square →
        ∀ p ∈ ([(t.sq0, u.sq0), (t.sq1, u.sq1)] : List (SquareChannel × SquareChannel)),
          p.1.update = 0 ∧
          p.2.d = { p.1.d with period := p.2.d.period, waveStep := p.2.d.waveStep } ∧
          (t.args.hasSweep = false ∨ p.1.d.sweepEn = false ∨ p.1.d.shift = 0 → p.2.d = p.1.d)) ∧
      (s.cart.audioOption = .saw → t.saw.update = 0 ∧ u.saw.d = t.saw.d)

/-! ## Lifecycle (46_lifecycle.md) -/

/-- R366 with R39 to R41 and the reset views of R141, R186 and R221: what RESET leaves, for every variant and audio module. That the state of
an absent audio module stays is the model's reading (log entry 6). -/
def Obligations.ResetRestoresEverything : Prop :=
  ∀ s : State, s.active ≠ .none → CartOk s → ∃ t, exec .reset s = .next t ∧
    t = { s.clearReport with
      bandai := t.bandai, mmc := t.mmc, sunsoft := t.sunsoft, view := t.view
      sq0 := t.sq0, sq1 := t.sq1, da := t.da, saw := t.saw } ∧
    AbsentKept s t ∧
    t.view.chrSlot = #v[0, 1, 2, 3, 4, 5, 6, 7] ∧ t.view.ntSrc = ciramTables s.cart.headerMirroring ∧
    t.view.prgSlot = #v[0, if s.active = .mmc2 then 2 * s.cart.prgPages.toNat - 3 else 1,
      2 * s.cart.prgPages.toNat - 2, 2 * s.cart.prgPages.toNat - 1] ∧
    (s.active = .bandai → t.bandai = { chr := #v[0, 1, 2, 3, 4, 5, 6, 7], prg := 0, mirror := s.cart.headerMirroring, irqEnable := false, irqCounter := 0, irqLatch := 0 }) ∧
    (s.active = .mmc2 ∨ s.active = .mmc4 → t.mmc = { prg := 0, chrFd0 := 0, chrFe0 := 0, chrFd1 := 1, chrFe1 := 1, mirror := s.cart.headerMirroring, latch0 := 0xFE, latch1 := 0xFE }) ∧
    (s.active = .sunsoft → t.sunsoft = { chr := #v[0, 1, 2, 3], nt := #v[0, 0], ntctl := BitVec.ofNat 8 (codeOf s.cart.headerMirroring).toNat, prg := 0 }) ∧
    (s.cart.audioOption = .square → t.da = 0 ∧ ∀ c ∈ [t.sq0, t.sq1], c = {
      regs := #v[0, 0, 0, 0], update := 0, enabled := false, key := false, length := 0, envVol := 0, dutyPos := 0
      release := 0, envPhase := 0, lenPhase := 0, sweepPhase := 0, wavePhase := 0
      d := squareDecode s.args #v[0, 0, 0, 0] }) ∧
    (s.cart.audioOption = .saw → t.saw = {
      regs := #v[0, 0, 0], update := 0, key := false, stepPos := 0, acc := 0, release := 0, wavePhase := 0
      d := sawDecode s.args #v[0, 0, 0] })

/-- R360, R361: INIT's checks in order. A failure reports its code and leaves active = NONE. A success fixes the
configuration and leaves a state that RESET leaves as it is. -/
def Obligations.InitOutcomes : Prop :=
  ∀ (s : State) (id prg chr : Byte) (mirror audio : BitVec 2) (o : AudioOption),
    (audio.toNat, o) ∈ ([(0, .none), (1, .square), (2, .saw)] : List (Nat × AudioOption)) →
    (id ≠ 9 → id ≠ 10 → id ≠ 16 → id ≠ 68 →
      exec (.init id prg chr mirror audio) s = .refused (.unsupportedMapper id)) ∧
    ∀ p ∈ ([(9, .mmc2, 2), (10, .mmc4, 1), (16, .bandai, 1), (68, .sunsoft, 1)] : List (Byte × Active × Nat)),
      id = p.1 →
      (prg.toNat < p.2.2 → ∃ t, exec (.init id prg chr mirror audio) s = .next t ∧
        t.active = .none ∧ t.out = { initResult := some .insufficient }) ∧
      (p.2.2 ≤ prg.toNat → ¬PowerOfTwo prg.toNat → ∃ t, exec (.init id prg chr mirror audio) s = .next t ∧
        t.active = .none ∧ t.out = { initResult := some .unsupported }) ∧
      (p.2.2 ≤ prg.toNat → PowerOfTwo prg.toNat → chr = 0 → ∃ t, exec (.init id prg chr mirror audio) s = .next t ∧
        t.active = .none ∧ t.out = { initResult := some .insufficient }) ∧
      (p.2.2 ≤ prg.toNat → PowerOfTwo prg.toNat → chr ≠ 0 → ¬PowerOfTwo chr.toNat →
        ∃ t, exec (.init id prg chr mirror audio) s = .next t ∧
          t.active = .none ∧ t.out = { initResult := some .unsupported }) ∧
      (p.2.2 ≤ prg.toNat → PowerOfTwo prg.toNat → PowerOfTwo chr.toNat →
        ∃ t, exec (.init id prg chr mirror audio) s = .next t ∧
          t.cart = { mapperId := id, prgPages := prg, chrPages := chr, headerMirroring := modeOf mirror, audioOption := o } ∧
          t.active = p.2.1 ∧ t.out = { initResult := some .ok } ∧ exec .reset t = .next t.clearReport)

/-- R365: what a successful INIT leaves of the block does not depend on what was there before. -/
def Obligations.InitReplacesEverything : Prop :=
  ∀ (s s' t : State) (id prg chr : Byte) (mirror audio : BitVec 2), s.args = s'.args →
    exec (.init id prg chr mirror audio) s = .next t → t.out.initResult = some .ok →
    ∃ t', exec (.init id prg chr mirror audio) s' = .next t' ∧
      t'.cart = t.cart ∧ t'.active = t.active ∧ t'.bandai = t.bandai ∧ t'.mmc = t.mmc ∧ t'.sunsoft = t.sunsoft ∧
      t'.view = t.view ∧ t'.sq0 = t.sq0 ∧ t'.sq1 = t.sq1 ∧ t'.da = t.da ∧ t'.saw = t.saw ∧ t'.out = t.out ∧
      t'.args = t.args

/-- R363: with active = NONE, as before the first INIT and after a failed one, every transaction but INIT is refused. -/
def Obligations.RefusedBeforeInit : Prop :=
  State.reset.active = .none ∧
  (∀ (s t : State) (id prg chr : Byte) (mirror audio : BitVec 2) (r : InitResult),
    exec (.init id prg chr mirror audio) s = .next t → t.out.initResult = some r → r ≠ .ok → t.active = .none) ∧
  (∀ (s : State) (i : Instr), s.active = .none → i.isInit = false →
    ∃ r, exec i s = .refused r ∧ (i.isReserved = false → r = .notInitialised)) ∧
  (∀ (s : State) (w : TxWord) (rest : List Input), s.active = .none → s.inputs = .transaction w :: rest →
    w.toNat / 2 ^ 28 ≠ 9 → ∃ r, step s = .refused r)

/-- R368: SAVE appends the payload of the active variant and then the audio module's, and changes nothing else. -/
def Obligations.SaveBytes : Prop :=
  ∀ s : State, s.active ≠ .none → exec .save s = .next { s.clearReport with
    stream := s.stream ++ (mapperSaved s ++ audioSaved s)
    out := { saved := mapperSaved s ++ audioSaved s } }

/-- R369, R371: LOAD refuses exactly a stream that is short or holds a field out of range. Otherwise it takes the payload
off the stream, pushes the view again, decodes the audio registers again, raises no edge and leaves fields that SAVE would
write as the same bytes, every phase below 2^64. The state of components that the cartridge lacks stays (log entry 6). -/
def Obligations.LoadChecksAndEffect : Prop :=
  ∀ s : State, s.active ≠ .none →
    (streamLegal s = false → exec .load s = .refused .badStream) ∧
    (streamLegal s = true → ∃ t, exec .load s = .next t ∧
      t.stream = s.stream.drop (mapperSavedLen s.active + audioSavedLen s.cart.audioOption) ∧
      mapperSaved t ++ audioSaved t = s.stream.take (mapperSavedLen s.active + audioSavedLen s.cart.audioOption) ∧
      t.view = viewOf t ∧ t.out = {} ∧
      (s.cart.audioOption = .square → t.sq0.d = squareDecode s.args t.sq0.regs ∧ t.sq1.d = squareDecode s.args t.sq1.regs) ∧
      (s.cart.audioOption = .saw → t.saw.d = sawDecode s.args t.saw.regs) ∧
      (s.cart.audioOption = .square → SquarePhasesFit t.sq0 ∧ SquarePhasesFit t.sq1) ∧
      (s.cart.audioOption = .saw → t.saw.wavePhase < 2 ^ 64) ∧
      AbsentKept s t ∧
      t = { s.clearReport with
        bandai := t.bandai, mmc := t.mmc, sunsoft := t.sunsoft, view := t.view
        sq0 := t.sq0, sq1 := t.sq1, da := t.da, saw := t.saw, stream := t.stream })

/-- R370: a LOAD of what a SAVE wrote gives back every field, the view and, for a channel with nothing pending, the derived
record. -/
def Obligations.SaveLoadRoundTrip : Prop :=
  ∀ s : State, s.active ≠ .none → ViewOk s → LatchOk s → AudioOk s → PhasesFit s →
    ∃ t u, exec .save s = .next t ∧ exec .load { t with stream := t.out.saved } = .next u ∧
      u = { s.clearReport with
        stream := []
        sq0 := { s.sq0 with d := u.sq0.d }
        sq1 := { s.sq1 with d := u.sq1.d }
        saw := { s.saw with d := u.saw.d } } ∧
      (s.sq0.update = 0 → u.sq0 = s.sq0) ∧ (s.sq1.update = 0 → u.sq1 = s.sq1) ∧ (s.saw.update = 0 → u.saw = s.saw)

/-- R370, R341: a channel with a pending write steps without reading its derived record. -/
def Obligations.DerivedUnreadWhilePending : Prop :=
  (∀ (args : ModelArgs) (ch : SquareChannel) (d : SquareDerived), ch.update ≠ 0 →
    squareStep args { ch with d := d } = squareStep args ch) ∧
  (∀ (args : ModelArgs) (ch : SawChannel) (d : SawDerived), ch.update ≠ 0 →
    sawStep args { ch with d := d } = sawStep args ch)

/-! ## Encoding (30_encoding.md) -/

/-- R108: a word with a reserved kind, a non-zero must-be-0 field or INIT's audio = 3 is refused. Every other word decodes,
and to no reserved row. -/
def Obligations.DecodeValidity : Prop :=
  (∀ (s : State) (w : TxWord) (rest : List Input), s.inputs = .transaction w :: rest → invalidWord w.toNat = true →
    ∃ r, step s = .refused r) ∧
  (∀ (sel : Selection) (w : TxWord), invalidWord w.toNat = false →
    ∃ d, decode sel w = .ok d ∧ ∀ i, d.holds i → i.isReserved = false)

/-- R108(a): the reserved kinds are refused, in every state. -/
def Obligations.ReservedKindsStop : Prop :=
  ∀ (s : State) (rest : BitVec 28),
    exec (.reservedA rest) s = .refused (.reservedKind 0xA#4) ∧ exec (.reservedB rest) s = .refused (.reservedKind 0xB#4) ∧
    exec (.reservedC rest) s = .refused (.reservedKind 0xC#4) ∧ exec (.reservedD rest) s = .refused (.reservedKind 0xD#4) ∧
    exec (.reservedE rest) s = .refused (.reservedKind 0xE#4) ∧ exec (.reservedF rest) s = .refused (.reservedKind 0xF#4)

/-- Decode of encode: every well-formed instruction is read back, with all its operands, by its component. -/
def Obligations.DecodeOfEncode : Prop :=
  ∀ (sel : Selection) (i : Instr), i.wf = true → i.componentOf sel →
    ∃ d, decode sel (encode i) = .ok d ∧ d.holds i

/-- Encode of decode: what a word decodes to is well-formed, of the selected components, and encodes to that word. -/
def Obligations.EncodeOfDecode : Prop :=
  ∀ (sel : Selection) (w : TxWord) (d : Decoded) (i : Instr), decode sel w = .ok d → d.holds i →
    encode i = w ∧ i.wf = true ∧ i.componentOf sel

/-- Words written out from the tables of 30_encoding.md decode to the instructions they stand for. -/
def Obligations.TableWords : Prop :=
  decode ⟨.bandai, .none⟩ 0x00800803#32 = .ok (.write (some (.bandaiPrg 0x8008 0x03)) none) ∧
  decode ⟨.mmc2, .none⟩ 0x00D00004#32 = .ok (.write (some (.mmcChrfd1 0xD000 0x04)) none) ∧
  decode ⟨.mmc4, .saw⟩ 0x00B00207#32 = .ok (.write (some (.mmcChrfd0 0xB002 0x07)) (some (.sawR2 0xB002 0x07))) ∧
  decode ⟨.sunsoft, .none⟩ 0x00F00001#32 = .ok (.write (some (.sunsoftPrg 0xF000 0x01)) none) ∧
  decode ⟨.sunsoft, .square⟩ 0x00501503#32 = .ok (.write none (some (.sqEnable 0x03))) ∧
  decode ⟨.bandai, .none⟩ 0x10001FD0#32 = .ok (.one (.ppuLatch 0x1FD0)) ∧
  decode ⟨.bandai, .none⟩ 0x944A1002#32 = .ok (.one (.init 68 2 16 2 2))

/-! ## Whole-block rules -/

/-- One step of a transaction word runs what the word decodes to and advances the position by one: a single instruction, or
a bus write's mapper part and then its audio part (the queue of inputs is the model's form, log entry 2). -/
def Obligations.StepRunsDecodedWord : Prop :=
  ∀ (s s' : State) (w : TxWord) (rest : List Input), s.inputs = .transaction w :: rest →
    s' = { s with inputs := rest } →
    (∀ e, decode s.selection w = .error e → ∃ r, step s = .refused r) ∧
    (∀ i, decode s.selection w = .ok (.one i) →
      (∀ t, exec i s' = .next t → step s = .next { t with pos := t.pos + 1 }) ∧
      (∀ r, exec i s' = .refused r → step s = .refused r)) ∧
    (∀ m a, decode s.selection w = .ok (.write m a) → s.active = .none → step s = .refused .notInitialised) ∧
    (decode s.selection w = .ok (.write none none) → s.active ≠ .none →
      step s = .next { s'.clearReport with pos := s.pos + 1 }) ∧
    (∀ i t, decode s.selection w = .ok (.write (some i) none) ∨ decode s.selection w = .ok (.write none (some i)) →
      exec i s' = .next t → step s = .next { t with pos := t.pos + 1 }) ∧
    (∀ i j t u, decode s.selection w = .ok (.write (some i) (some j)) → exec i s' = .next t → exec j t = .next u →
      step s = .next { u with pos := u.pos + 1 })

/-- R71: a bus write outside every claimed window changes nothing but the position, and clears the report. -/
def Obligations.UnclaimedWrites : Prop :=
  ∀ (s : State) (a : Addr) (v : Byte) (rest : List Input), s.active ≠ .none →
    s.inputs = .transaction (wrWord a v) :: rest →
    (s.active = .bandai → a.toNat < 0x6000) → (s.active = .mmc2 ∨ s.active = .mmc4 → a.toNat < 0xA000) →
    (s.active = .sunsoft → a.toNat < 0x8000) →
    (s.cart.audioOption = .square → (a.toNat < 0x5000 ∨ 0x5007 < a.toNat) ∧ a.toNat ≠ 0x5011 ∧ a.toNat ≠ 0x5015) →
    (s.cart.audioOption = .saw → a.toNat < 0xB000 ∨ 0xBFFF < a.toNat) →
    step s = .next { s with inputs := rest, out := {}, pos := s.pos + 1 }

/-- R24, R394: every transaction that is not refused advances the position by exactly one, and with no transaction delivered
the block holds its state (the queue of inputs is the model's form, log entry 2). -/
def Obligations.PositionAdvances : Prop :=
  (∀ (s t : State) (w : TxWord) (rest : List Input), s.inputs = .transaction w :: rest → step s = .next t →
    t.pos = s.pos + 1 ∧ t.inputs = rest) ∧
  ∀ s : State, s.inputs = [] → step s = .next s

/-- R28, R33, R78, R383: who writes what. The model arguments, ROM and CIRAM never change. The configuration changes only by
INIT, LINE only by RENDER_LINE, the latches only by PPU_LATCH, RENDER_LINE, LOAD, RESET and INIT, the counter and its enable
only by a commit, port 10, LOAD, RESET and INIT. Only a commit on BANDAI raises an edge.
That an INIT keeps LINE and the ROM image is the model's choice (log entries 7 and 9). -/
def Obligations.WhoWritesWhat : Prop :=
  ∀ (s t : State) (i : Instr), exec i s = .next t →
    t.args = s.args ∧ t.prgRom = s.prgRom ∧ t.chrRom = s.chrRom ∧ t.ciram = s.ciram ∧
    (i.isInit = false → t.cart = s.cart ∧ t.active = s.active) ∧
    (i.isRender = false → t.line = s.line) ∧
    (i.mayMoveLatch = false → t.mmc.latch0 = s.mmc.latch0 ∧ t.mmc.latch1 = s.mmc.latch1) ∧
    (i.isCommit = false → ¬i.Rearms →
      t.bandai.irqCounter = s.bandai.irqCounter ∧ t.bandai.irqEnable = s.bandai.irqEnable) ∧
    (t.out.irqEdge = true → i.isCommit = true ∧ s.active = .bandai)

/-- R85: a bus write or a PPU_LATCH repeated leaves the state of one. -/
def Obligations.RepeatedWrites : Prop :=
  ∀ (s t : State) (i : Instr), i.isBusWrite = true ∨ (∃ p, i = .ppuLatch p) → exec i s = .next t → exec i t = .next t

/-- R22, R88, R367: on a pushed view every selected page exists, and $E000 to $FFFF, with the CPU's vectors, is the last
8 KiB page of PRG ROM. -/
def Obligations.PagesExist : Prop :=
  ∀ s : State, s.active ≠ .none → CartOk s → ViewOk s →
    (∀ k : Fin 4, s.view.prgSlot[k.val] < 2 * s.cart.prgPages.toNat) ∧
    (∀ k : Fin 8, s.view.chrSlot[k.val] < 8 * s.cart.chrPages.toNat) ∧
    (∀ (k : Fin 4) (p : Nat), s.view.ntSrc[k.val] = .chr p → p < 8 * s.cart.chrPages.toNat) ∧
    ∀ a : Addr, 0xE000 ≤ a.toNat →
      cpuRead s a = some (s.prgRom.read ((2 * s.cart.prgPages.toNat - 1) * 8192 + a.toNat % 8192))

/-- R72, R74, R76: the three reads through the view, in arithmetic, and that the CPU's changes no block state (a read
is an input of the model's form, and what it answers while active = NONE is the model's choice, log entry 21). -/
def Obligations.ReadsThroughView : Prop :=
  (∀ (s : State) (a : Addr) (rest : List Input), s.inputs = .cpuRead a :: rest →
    (0x8000 ≤ a.toNat → step s = .next { s with
      inputs := rest
      out := { cpuRead := some (s.prgRom.read
        (s.view.prgSlot[(a.toNat - 0x8000) / 8192]'(by omega) * 8192 + a.toNat % 8192)) } }) ∧
    (a.toNat < 0x8000 → step s = .next { s with inputs := rest, out := {} })) ∧
  (∀ (s : State) (p : PpuAddr), p.toNat < 0x2000 → patRead s p =
    s.chrRom.read (s.view.chrSlot[p.toNat / 1024 % 8]'(by omega) * 1024 + p.toNat % 1024)) ∧
  ∀ (s : State) (t : BitVec 2) (off : BitVec 10),
    (∀ k : Fin 2, s.view.ntSrc[t.toNat] = .ciram k → ntRead s t off = s.ciram.read (k.val * 1024 + off.toNat)) ∧
    (∀ p : Nat, s.view.ntSrc[t.toNat] = .chr p → ntRead s t off = s.chrRom.read (p * 1024 + off.toNat))

/-- R77: the external PPU writes one byte of CIRAM and nothing else (the input is the model's form, log entry 10). -/
def Obligations.CiramWrites : Prop :=
  ∀ (s : State) (off : BitVec 11) (v : Byte) (rest : List Input), s.inputs = .ciramWrite off v :: rest →
    ∃ t, step s = .next t ∧ t = { s with inputs := rest, out := {}, ciram := t.ciram } ∧
      t.ciram.read off.toNat = v ∧ ∀ a : Nat, a ≠ off.toNat → t.ciram.read a = s.ciram.read a

/-- R362, R30, R26, R370, R40: a step keeps the cartridge's shape, the pushed view, the latches' values, the memories' form
and the derived records, from every state that has them. -/
def Obligations.StepKeepsInvariant : Prop := ∀ s t : State, Inv s → step s = .next t → Inv t

/-- The invariant holds in the state before the first INIT. Beside active = NONE (R364) that state's values are the model's
choice (log entry 1). -/
def Obligations.ResetStateSound : Prop :=
  Inv State.reset ∧ State.reset.active = .none ∧ State.reset.pos = 0 ∧ State.reset.out = {}

/-- R79: a save stream handed over by the host replaces the stream, clears the report and changes nothing else (the input is
the model's form, log entry 11), so that a LOAD next reads exactly those bytes. -/
def Obligations.SaveStreamHandover : Prop :=
  (∀ (s : State) (bytes : List Byte) (rest : List Input), s.inputs = .saveStream bytes :: rest →
    step s = .next { s with inputs := rest, out := {}, stream := bytes }) ∧
  ∀ (s : State) (bytes : List Byte) (rest : List Input), s.active ≠ .none →
    s.inputs = .saveStream bytes :: .transaction 0x80000000#32 :: rest →
    ∃ t, step s = .next t ∧
      (streamLegal { s with stream := bytes } = false → step t = .refused .badStream) ∧
      (streamLegal { s with stream := bytes } = true → ∃ u, step t = .next u ∧ u.inputs = rest ∧ u.pos = s.pos + 1 ∧
        mapperSaved u ++ audioSaved u =
          bytes.take (mapperSavedLen s.active + audioSavedLen s.cart.audioOption) ∧
        u.stream = bytes.drop (mapperSavedLen s.active + audioSavedLen s.cart.audioOption))

end
end

