-- ==== Sys2Proof/Laws/PerInstr.lean ====
section
/-! SUPPORT. Facts said once per instruction, about the instruction as syntax: the word of a well-formed instruction is one
that 30_encoding.md R108 accepts, unless its kind is reserved. -/

namespace Sys2Proof.Machine

theorem wrWord_toNat (a : Addr) (v : Byte) : (wrWord a v).toNat = a.toNat * 256 + v.toNat := by
  simp only [wrWord, BitVec.toNat_append, BitVec.toNat_ofNat, Nat.zero_mod, Nat.zero_shiftLeft, Nat.zero_or]
  rw [← Nat.shiftLeft_add_eq_or_of_lt v.isLt, Nat.shiftLeft_eq]

theorem kindWord_toNat (k : BitVec 4) (rest : BitVec 28) :
    (kindWord k rest).toNat = k.toNat * 2 ^ 28 + rest.toNat := by
  simp only [kindWord, BitVec.toNat_append]
  rw [← Nat.shiftLeft_add_eq_or_of_lt rest.isLt, Nat.shiftLeft_eq]

theorem kindOf_wrWord (a : Addr) (v : Byte) : kindOf (wrWord a v) = 0#4 := by
  apply BitVec.eq_of_toNat_eq
  simp only [kindOf, BitVec.extractLsb'_toNat, wrWord_toNat, Nat.shiftRight_eq_div_pow, BitVec.toNat_ofNat]
  omega

theorem kindOf_kindWord (k : BitVec 4) (rest : BitVec 28) : kindOf (kindWord k rest) = k := by
  apply BitVec.eq_of_toNat_eq
  simp only [kindOf, BitVec.extractLsb'_toNat, kindWord_toNat, Nat.shiftRight_eq_div_pow]
  omega

/-! The kind of each instruction. -/

@[simp] theorem kind_bandaiChr0 (a : Addr) (v : Byte) :
    Instr.kind (.bandaiChr0 a v) = 0x0#4 := kindOf_wrWord _ _

@[simp] theorem kind_bandaiChr1 (a : Addr) (v : Byte) :
    Instr.kind (.bandaiChr1 a v) = 0x0#4 := kindOf_wrWord _ _

@[simp] theorem kind_bandaiChr2 (a : Addr) (v : Byte) :
    Instr.kind (.bandaiChr2 a v) = 0x0#4 := kindOf_wrWord _ _

@[simp] theorem kind_bandaiChr3 (a : Addr) (v : Byte) :
    Instr.kind (.bandaiChr3 a v) = 0x0#4 := kindOf_wrWord _ _

@[simp] theorem kind_bandaiChr4 (a : Addr) (v : Byte) :
    Instr.kind (.bandaiChr4 a v) = 0x0#4 := kindOf_wrWord _ _

@[simp] theorem kind_bandaiChr5 (a : Addr) (v : Byte) :
    Instr.kind (.bandaiChr5 a v) = 0x0#4 := kindOf_wrWord _ _

@[simp] theorem kind_bandaiChr6 (a : Addr) (v : Byte) :
    Instr.kind (.bandaiChr6 a v) = 0x0#4 := kindOf_wrWord _ _

@[simp] theorem kind_bandaiChr7 (a : Addr) (v : Byte) :
    Instr.kind (.bandaiChr7 a v) = 0x0#4 := kindOf_wrWord _ _

@[simp] theorem kind_bandaiPrg (a : Addr) (v : Byte) :
    Instr.kind (.bandaiPrg a v) = 0x0#4 := kindOf_wrWord _ _

@[simp] theorem kind_bandaiMirror (a : Addr) (v : Byte) :
    Instr.kind (.bandaiMirror a v) = 0x0#4 := kindOf_wrWord _ _

@[simp] theorem kind_bandaiIrqctl (a : Addr) (v : Byte) :
    Instr.kind (.bandaiIrqctl a v) = 0x0#4 := kindOf_wrWord _ _

@[simp] theorem kind_bandaiLatchlo (a : Addr) (v : Byte) :
    Instr.kind (.bandaiLatchlo a v) = 0x0#4 := kindOf_wrWord _ _

@[simp] theorem kind_bandaiLatchhi (a : Addr) (v : Byte) :
    Instr.kind (.bandaiLatchhi a v) = 0x0#4 := kindOf_wrWord _ _

@[simp] theorem kind_bandaiPort13 (a : Addr) (v : Byte) :
    Instr.kind (.bandaiPort13 a v) = 0x0#4 := kindOf_wrWord _ _

@[simp] theorem kind_bandaiPort14 (a : Addr) (v : Byte) :
    Instr.kind (.bandaiPort14 a v) = 0x0#4 := kindOf_wrWord _ _

@[simp] theorem kind_bandaiPort15 (a : Addr) (v : Byte) :
    Instr.kind (.bandaiPort15 a v) = 0x0#4 := kindOf_wrWord _ _

@[simp] theorem kind_mmcUnclaimed (a : Addr) (v : Byte) :
    Instr.kind (.mmcUnclaimed a v) = 0x0#4 := kindOf_wrWord _ _

@[simp] theorem kind_mmc2Prg8 (a : Addr) (v : Byte) :
    Instr.kind (.mmc2Prg8 a v) = 0x0#4 := kindOf_wrWord _ _

@[simp] theorem kind_mmc4Prg16 (a : Addr) (v : Byte) :
    Instr.kind (.mmc4Prg16 a v) = 0x0#4 := kindOf_wrWord _ _

@[simp] theorem kind_mmcChrfd0 (a : Addr) (v : Byte) :
    Instr.kind (.mmcChrfd0 a v) = 0x0#4 := kindOf_wrWord _ _

@[simp] theorem kind_mmcChrfe0 (a : Addr) (v : Byte) :
    Instr.kind (.mmcChrfe0 a v) = 0x0#4 := kindOf_wrWord _ _

@[simp] theorem kind_mmcChrfd1 (a : Addr) (v : Byte) :
    Instr.kind (.mmcChrfd1 a v) = 0x0#4 := kindOf_wrWord _ _

@[simp] theorem kind_mmcChrfe1 (a : Addr) (v : Byte) :
    Instr.kind (.mmcChrfe1 a v) = 0x0#4 := kindOf_wrWord _ _

@[simp] theorem kind_mmcMirror (a : Addr) (v : Byte) :
    Instr.kind (.mmcMirror a v) = 0x0#4 := kindOf_wrWord _ _

@[simp] theorem kind_sunsoftChr0 (a : Addr) (v : Byte) :
    Instr.kind (.sunsoftChr0 a v) = 0x0#4 := kindOf_wrWord _ _

@[simp] theorem kind_sunsoftChr1 (a : Addr) (v : Byte) :
    Instr.kind (.sunsoftChr1 a v) = 0x0#4 := kindOf_wrWord _ _

@[simp] theorem kind_sunsoftChr2 (a : Addr) (v : Byte) :
    Instr.kind (.sunsoftChr2 a v) = 0x0#4 := kindOf_wrWord _ _

@[simp] theorem kind_sunsoftChr3 (a : Addr) (v : Byte) :
    Instr.kind (.sunsoftChr3 a v) = 0x0#4 := kindOf_wrWord _ _

@[simp] theorem kind_sunsoftNt0 (a : Addr) (v : Byte) :
    Instr.kind (.sunsoftNt0 a v) = 0x0#4 := kindOf_wrWord _ _

@[simp] theorem kind_sunsoftNt1 (a : Addr) (v : Byte) :
    Instr.kind (.sunsoftNt1 a v) = 0x0#4 := kindOf_wrWord _ _

@[simp] theorem kind_sunsoftNtctl (a : Addr) (v : Byte) :
    Instr.kind (.sunsoftNtctl a v) = 0x0#4 := kindOf_wrWord _ _

@[simp] theorem kind_sunsoftPrg (a : Addr) (v : Byte) :
    Instr.kind (.sunsoftPrg a v) = 0x0#4 := kindOf_wrWord _ _

@[simp] theorem kind_sq0R0 (v : Byte) :
    Instr.kind (.sq0R0 v) = 0x0#4 := kindOf_wrWord _ _

@[simp] theorem kind_sq0R1 (v : Byte) :
    Instr.kind (.sq0R1 v) = 0x0#4 := kindOf_wrWord _ _

@[simp] theorem kind_sq0R2 (v : Byte) :
    Instr.kind (.sq0R2 v) = 0x0#4 := kindOf_wrWord _ _

@[simp] theorem kind_sq0R3 (v : Byte) :
    Instr.kind (.sq0R3 v) = 0x0#4 := kindOf_wrWord _ _

@[simp] theorem kind_sq1R0 (v : Byte) :
    Instr.kind (.sq1R0 v) = 0x0#4 := kindOf_wrWord _ _

@[simp] theorem kind_sq1R1 (v : Byte) :
    Instr.kind (.sq1R1 v) = 0x0#4 := kindOf_wrWord _ _

@[simp] theorem kind_sq1R2 (v : Byte) :
    Instr.kind (.sq1R2 v) = 0x0#4 := kindOf_wrWord _ _

@[simp] theorem kind_sq1R3 (v : Byte) :
    Instr.kind (.sq1R3 v) = 0x0#4 := kindOf_wrWord _ _

@[simp] theorem kind_sqDa (v : Byte) :
    Instr.kind (.sqDa v) = 0x0#4 := kindOf_wrWord _ _

@[simp] theorem kind_sqEnable (v : Byte) :
    Instr.kind (.sqEnable v) = 0x0#4 := kindOf_wrWord _ _

@[simp] theorem kind_sawR0 (a : Addr) (v : Byte) :
    Instr.kind (.sawR0 a v) = 0x0#4 := kindOf_wrWord _ _

@[simp] theorem kind_sawR1 (a : Addr) (v : Byte) :
    Instr.kind (.sawR1 a v) = 0x0#4 := kindOf_wrWord _ _

@[simp] theorem kind_sawR2 (a : Addr) (v : Byte) :
    Instr.kind (.sawR2 a v) = 0x0#4 := kindOf_wrWord _ _

@[simp] theorem kind_sawR3 (a : Addr) (v : Byte) :
    Instr.kind (.sawR3 a v) = 0x0#4 := kindOf_wrWord _ _

@[simp] theorem kind_ppuLatch (p : PpuAddr) :
    Instr.kind (.ppuLatch p) = 0x1#4 := kindOf_kindWord _ _

@[simp] theorem kind_scanlineStart (line : BitVec 9) :
    Instr.kind (.scanlineStart line) = 0x2#4 := kindOf_kindWord _ _

@[simp] theorem kind_predict (line : BitVec 9) :
    Instr.kind (.predict line) = 0x3#4 := kindOf_kindWord _ _

@[simp] theorem kind_reset :
    Instr.kind (.reset) = 0x4#4 := kindOf_kindWord _ _

@[simp] theorem kind_renderLine (v : BitVec 15) (fineX : BitVec 3) (bgSel leftClip bgEnabled widthOk : Bool) :
    Instr.kind (.renderLine v fineX bgSel leftClip bgEnabled widthOk) = 0x5#4 := kindOf_kindWord _ _

@[simp] theorem kind_sample :
    Instr.kind (.sample) = 0x6#4 := kindOf_kindWord _ _

@[simp] theorem kind_save :
    Instr.kind (.save) = 0x7#4 := kindOf_kindWord _ _

@[simp] theorem kind_load :
    Instr.kind (.load) = 0x8#4 := kindOf_kindWord _ _

@[simp] theorem kind_init (id prg chr : Byte) (mirror audio : BitVec 2) :
    Instr.kind (.init id prg chr mirror audio) = 0x9#4 := kindOf_kindWord _ _

@[simp] theorem kind_reservedA (rest : BitVec 28) :
    Instr.kind (.reservedA rest) = 0xA#4 := kindOf_kindWord _ _

@[simp] theorem kind_reservedB (rest : BitVec 28) :
    Instr.kind (.reservedB rest) = 0xB#4 := kindOf_kindWord _ _

@[simp] theorem kind_reservedC (rest : BitVec 28) :
    Instr.kind (.reservedC rest) = 0xC#4 := kindOf_kindWord _ _

@[simp] theorem kind_reservedD (rest : BitVec 28) :
    Instr.kind (.reservedD rest) = 0xD#4 := kindOf_kindWord _ _

@[simp] theorem kind_reservedE (rest : BitVec 28) :
    Instr.kind (.reservedE rest) = 0xE#4 := kindOf_kindWord _ _

@[simp] theorem kind_reservedF (rest : BitVec 28) :
    Instr.kind (.reservedF rest) = 0xF#4 := kindOf_kindWord _ _

/-- A bus write's word is accepted. -/
theorem invalidWord_wrWord (a : Addr) (v : Byte) : invalidWord (wrWord a v).toNat = false := by
  have h : (wrWord a v).toNat < 2 ^ 24 := by rw [wrWord_toNat]; omega
  have h1 : (wrWord a v).toNat / 2 ^ 28 = 0 := by omega
  have h2 : (wrWord a v).toNat % 2 ^ 28 / 2 ^ 24 = 0 := by omega
  simp only [invalidWord, h1, h2]
  simp

/-- What R108 makes of a word with kind `k`, in terms of the 28 bits below. -/
theorem invalidWord_kindWord (k : BitVec 4) (rest : BitVec 28) :
    invalidWord (kindWord k rest).toNat =
      (decide (0xA ≤ k.toNat) || (decide (k.toNat = 0) && decide (rest.toNat / 2 ^ 24 ≠ 0)) ||
        (decide (k.toNat = 1) && decide (rest.toNat / 2 ^ 14 ≠ 0)) ||
        ((decide (k.toNat = 2) || decide (k.toNat = 3)) && decide (rest.toNat / 2 ^ 9 ≠ 0)) ||
        ((decide (k.toNat = 4) || decide (k.toNat = 6) || decide (k.toNat = 7) || decide (k.toNat = 8)) &&
          decide (rest.toNat ≠ 0)) ||
        (decide (k.toNat = 5) && decide (rest.toNat / 2 ^ 22 ≠ 0)) ||
        (decide (k.toNat = 9) && decide (rest.toNat / 2 ^ 18 % 4 = 3))) := by
  have h1 : (k.toNat * 2 ^ 28 + rest.toNat) / 2 ^ 28 = k.toNat := by omega
  have h2 : (k.toNat * 2 ^ 28 + rest.toNat) % 2 ^ 28 = rest.toNat := by omega
  simp only [invalidWord, kindWord_toNat, h1, h2]

/-- The value of one field above another. -/
theorem append_toNat {m n : Nat} (x : BitVec m) (y : BitVec n) : (x ++ y).toNat = x.toNat * 2 ^ n + y.toNat := by
  rw [BitVec.toNat_append, ← Nat.shiftLeft_add_eq_or_of_lt y.isLt, Nat.shiftLeft_eq]

/-- PPU_LATCH's 28 bits are its address. -/
theorem latchRest_toNat (p : PpuAddr) : @BitVec.toNat 28 (0#14 ++ p) = p.toNat := by
  rw [append_toNat]
  simp

/-- SCANLINE_START's and PREDICT's 28 bits are their line. -/
theorem lineRest_toNat (line : BitVec 9) : @BitVec.toNat 28 (0#19 ++ line) = line.toNat := by
  rw [append_toNat]
  simp

/-- RENDER_LINE's 28 bits in arithmetic (30_encoding.md R106). -/
theorem renderRest_toNat (v : BitVec 15) (fineX : BitVec 3) (flags : BitVec 4) :
    @BitVec.toNat 28 (0#6 ++ flags ++ fineX ++ v) = (flags.toNat * 2 ^ 3 + fineX.toNat) * 2 ^ 15 + v.toNat := by
  rw [append_toNat, append_toNat, append_toNat]
  simp

/-- INIT's 28 bits in arithmetic (30_encoding.md R107). -/
theorem initRest_toNat (id prg chr : Byte) (mirror audio : BitVec 2) :
    @BitVec.toNat 28 (id ++ audio ++ mirror ++ chr ++ prg) =
      (((id.toNat * 4 + audio.toNat) * 4 + mirror.toNat) * 256 + chr.toNat) * 256 + prg.toNat := by
  rw [append_toNat, append_toNat, append_toNat, append_toNat]
  norm_num

end Sys2Proof.Machine

namespace Sys2Proof.Laws.Encoding

open Sys2Proof.Machine

/-- A well-formed instruction's word is refused by R108 exactly when its kind is reserved. -/
def Statement (i : Instr) : Prop := i.wf = true → invalidWord (Sys2Proof.encode i).toNat = i.isReserved

theorem of_wrWord (i : Instr) (a : Addr) (v : Byte) (h : Sys2Proof.encode i = wrWord a v) : Statement i := fun _ => by
  simp [Instr.isReserved, Instr.kind, h, invalidWord_wrWord, kindOf_wrWord]

theorem of_reserved (i : Instr) (k : BitVec 4) (rest : BitVec 28) (h : Sys2Proof.encode i = kindWord k rest)
    (hk : 0xA ≤ k.toNat) : Statement i := fun _ => by
  simp [Instr.isReserved, Instr.kind, h, kindOf_kindWord, invalidWord_kindWord, hk]

theorem bandaiChr0 (a : Addr) (v : Byte) : Statement (.bandaiChr0 a v) :=
  of_wrWord _ a v rfl

theorem bandaiChr1 (a : Addr) (v : Byte) : Statement (.bandaiChr1 a v) :=
  of_wrWord _ a v rfl

theorem bandaiChr2 (a : Addr) (v : Byte) : Statement (.bandaiChr2 a v) :=
  of_wrWord _ a v rfl

theorem bandaiChr3 (a : Addr) (v : Byte) : Statement (.bandaiChr3 a v) :=
  of_wrWord _ a v rfl

theorem bandaiChr4 (a : Addr) (v : Byte) : Statement (.bandaiChr4 a v) :=
  of_wrWord _ a v rfl

theorem bandaiChr5 (a : Addr) (v : Byte) : Statement (.bandaiChr5 a v) :=
  of_wrWord _ a v rfl

theorem bandaiChr6 (a : Addr) (v : Byte) : Statement (.bandaiChr6 a v) :=
  of_wrWord _ a v rfl

theorem bandaiChr7 (a : Addr) (v : Byte) : Statement (.bandaiChr7 a v) :=
  of_wrWord _ a v rfl

theorem bandaiPrg (a : Addr) (v : Byte) : Statement (.bandaiPrg a v) :=
  of_wrWord _ a v rfl

theorem bandaiMirror (a : Addr) (v : Byte) : Statement (.bandaiMirror a v) :=
  of_wrWord _ a v rfl

theorem bandaiIrqctl (a : Addr) (v : Byte) : Statement (.bandaiIrqctl a v) :=
  of_wrWord _ a v rfl

theorem bandaiLatchlo (a : Addr) (v : Byte) : Statement (.bandaiLatchlo a v) :=
  of_wrWord _ a v rfl

theorem bandaiLatchhi (a : Addr) (v : Byte) : Statement (.bandaiLatchhi a v) :=
  of_wrWord _ a v rfl

theorem bandaiPort13 (a : Addr) (v : Byte) : Statement (.bandaiPort13 a v) :=
  of_wrWord _ a v rfl

theorem bandaiPort14 (a : Addr) (v : Byte) : Statement (.bandaiPort14 a v) :=
  of_wrWord _ a v rfl

theorem bandaiPort15 (a : Addr) (v : Byte) : Statement (.bandaiPort15 a v) :=
  of_wrWord _ a v rfl

theorem mmcUnclaimed (a : Addr) (v : Byte) : Statement (.mmcUnclaimed a v) :=
  of_wrWord _ a v rfl

theorem mmc2Prg8 (a : Addr) (v : Byte) : Statement (.mmc2Prg8 a v) :=
  of_wrWord _ a v rfl

theorem mmc4Prg16 (a : Addr) (v : Byte) : Statement (.mmc4Prg16 a v) :=
  of_wrWord _ a v rfl

theorem mmcChrfd0 (a : Addr) (v : Byte) : Statement (.mmcChrfd0 a v) :=
  of_wrWord _ a v rfl

theorem mmcChrfe0 (a : Addr) (v : Byte) : Statement (.mmcChrfe0 a v) :=
  of_wrWord _ a v rfl

theorem mmcChrfd1 (a : Addr) (v : Byte) : Statement (.mmcChrfd1 a v) :=
  of_wrWord _ a v rfl

theorem mmcChrfe1 (a : Addr) (v : Byte) : Statement (.mmcChrfe1 a v) :=
  of_wrWord _ a v rfl

theorem mmcMirror (a : Addr) (v : Byte) : Statement (.mmcMirror a v) :=
  of_wrWord _ a v rfl

theorem sunsoftChr0 (a : Addr) (v : Byte) : Statement (.sunsoftChr0 a v) :=
  of_wrWord _ a v rfl

theorem sunsoftChr1 (a : Addr) (v : Byte) : Statement (.sunsoftChr1 a v) :=
  of_wrWord _ a v rfl

theorem sunsoftChr2 (a : Addr) (v : Byte) : Statement (.sunsoftChr2 a v) :=
  of_wrWord _ a v rfl

theorem sunsoftChr3 (a : Addr) (v : Byte) : Statement (.sunsoftChr3 a v) :=
  of_wrWord _ a v rfl

theorem sunsoftNt0 (a : Addr) (v : Byte) : Statement (.sunsoftNt0 a v) :=
  of_wrWord _ a v rfl

theorem sunsoftNt1 (a : Addr) (v : Byte) : Statement (.sunsoftNt1 a v) :=
  of_wrWord _ a v rfl

theorem sunsoftNtctl (a : Addr) (v : Byte) : Statement (.sunsoftNtctl a v) :=
  of_wrWord _ a v rfl

theorem sunsoftPrg (a : Addr) (v : Byte) : Statement (.sunsoftPrg a v) :=
  of_wrWord _ a v rfl

theorem sq0R0 (v : Byte) : Statement (.sq0R0 v) :=
  of_wrWord _ 0x5000#16 v rfl

theorem sq0R1 (v : Byte) : Statement (.sq0R1 v) :=
  of_wrWord _ 0x5001#16 v rfl

theorem sq0R2 (v : Byte) : Statement (.sq0R2 v) :=
  of_wrWord _ 0x5002#16 v rfl

theorem sq0R3 (v : Byte) : Statement (.sq0R3 v) :=
  of_wrWord _ 0x5003#16 v rfl

theorem sq1R0 (v : Byte) : Statement (.sq1R0 v) :=
  of_wrWord _ 0x5004#16 v rfl

theorem sq1R1 (v : Byte) : Statement (.sq1R1 v) :=
  of_wrWord _ 0x5005#16 v rfl

theorem sq1R2 (v : Byte) : Statement (.sq1R2 v) :=
  of_wrWord _ 0x5006#16 v rfl

theorem sq1R3 (v : Byte) : Statement (.sq1R3 v) :=
  of_wrWord _ 0x5007#16 v rfl

theorem sqDa (v : Byte) : Statement (.sqDa v) :=
  of_wrWord _ 0x5011#16 v rfl

theorem sqEnable (v : Byte) : Statement (.sqEnable v) :=
  of_wrWord _ 0x5015#16 v rfl

theorem sawR0 (a : Addr) (v : Byte) : Statement (.sawR0 a v) :=
  of_wrWord _ a v rfl

theorem sawR1 (a : Addr) (v : Byte) : Statement (.sawR1 a v) :=
  of_wrWord _ a v rfl

theorem sawR2 (a : Addr) (v : Byte) : Statement (.sawR2 a v) :=
  of_wrWord _ a v rfl

theorem sawR3 (a : Addr) (v : Byte) : Statement (.sawR3 a v) :=
  of_wrWord _ a v rfl

theorem ppuLatch (p : PpuAddr) : Statement (.ppuLatch p) := fun _ => by
  have hp := p.isLt
  simp [Instr.isReserved, Instr.kind, Sys2Proof.encode, kindOf_kindWord, invalidWord_kindWord, latchRest_toNat]
  omega

theorem scanlineStart (line : BitVec 9) : Statement (.scanlineStart line) := fun _ => by
  have hl := line.isLt
  simp [Instr.isReserved, Instr.kind, Sys2Proof.encode, kindOf_kindWord, invalidWord_kindWord, lineRest_toNat]
  omega

theorem predict (line : BitVec 9) : Statement (.predict line) := fun _ => by
  have hl := line.isLt
  simp [Instr.isReserved, Instr.kind, Sys2Proof.encode, kindOf_kindWord, invalidWord_kindWord, lineRest_toNat]
  omega

theorem reset : Statement (.reset) := fun _ => by
  simp [Instr.isReserved, Instr.kind, Sys2Proof.encode, kindOf_kindWord, invalidWord_kindWord]

theorem renderLine (v : BitVec 15) (fineX : BitVec 3) (bgSel leftClip bgEnabled widthOk : Bool) : Statement (.renderLine v fineX bgSel leftClip bgEnabled widthOk) := fun _ => by
  have hf := fineX.isLt
  have hv := v.isLt
  have hb := (BitVec.ofBool widthOk ++ BitVec.ofBool bgEnabled ++ BitVec.ofBool leftClip ++ BitVec.ofBool bgSel).isLt
  simp only [Instr.isReserved, Instr.kind, Sys2Proof.encode, kindOf_kindWord, invalidWord_kindWord]
  rw [renderRest_toNat]
  simp
  omega

theorem sample : Statement (.sample) := fun _ => by
  simp [Instr.isReserved, Instr.kind, Sys2Proof.encode, kindOf_kindWord, invalidWord_kindWord]

theorem save : Statement (.save) := fun _ => by
  simp [Instr.isReserved, Instr.kind, Sys2Proof.encode, kindOf_kindWord, invalidWord_kindWord]

theorem load : Statement (.load) := fun _ => by
  simp [Instr.isReserved, Instr.kind, Sys2Proof.encode, kindOf_kindWord, invalidWord_kindWord]

theorem init (id prg chr : Byte) (mirror audio : BitVec 2) : Statement (.init id prg chr mirror audio) := fun h => by
  have ha : audio.toNat ≠ 3 := fun e => by
    have h2 : audio = 3#2 := BitVec.eq_of_toNat_eq e
    simp [Instr.wf, h2] at h
  have h1 := audio.isLt
  have h2 := mirror.isLt
  have h3 := chr.isLt
  have h4 := prg.isLt
  simp only [Instr.isReserved, Instr.kind, Sys2Proof.encode, kindOf_kindWord, invalidWord_kindWord, initRest_toNat]
  simp
  omega

theorem reservedA (rest : BitVec 28) : Statement (.reservedA rest) :=
  of_reserved _ 0xA#4 rest rfl (by decide)

theorem reservedB (rest : BitVec 28) : Statement (.reservedB rest) :=
  of_reserved _ 0xB#4 rest rfl (by decide)

theorem reservedC (rest : BitVec 28) : Statement (.reservedC rest) :=
  of_reserved _ 0xC#4 rest rfl (by decide)

theorem reservedD (rest : BitVec 28) : Statement (.reservedD rest) :=
  of_reserved _ 0xD#4 rest rfl (by decide)

theorem reservedE (rest : BitVec 28) : Statement (.reservedE rest) :=
  of_reserved _ 0xE#4 rest rfl (by decide)

theorem reservedF (rest : BitVec 28) : Statement (.reservedF rest) :=
  of_reserved _ 0xF#4 rest rfl (by decide)

end Sys2Proof.Laws.Encoding
end

