-- ==== Sys2Proof/Laws/Decode.lean ====
section
/-! SUPPORT. The fields of the words that the encoder writes, and how a bus write's word decodes. -/

namespace Sys2Proof.Machine

@[simp] theorem wrAddr_wrWord (a : Addr) (v : Byte) : wrAddr (wrWord a v) = a := by
  apply BitVec.eq_of_toNat_eq
  simp only [wrAddr, BitVec.extractLsb'_toNat, wrWord_toNat, Nat.shiftRight_eq_div_pow]
  omega

@[simp] theorem wrVal_wrWord (a : Addr) (v : Byte) : wrVal (wrWord a v) = v := by
  apply BitVec.eq_of_toNat_eq
  simp only [wrVal, BitVec.extractLsb'_toNat, wrWord_toNat, Nat.shiftRight_eq_div_pow]
  omega

/-- A bus write's word decodes to what each component makes of its address (30_encoding.md R102, R109). -/
theorem decode_wrWord (sel : Selection) (a : Addr) (v : Byte) :
    decode sel (wrWord a v) = .ok (.write (mapperPort sel.active a v) (audioPort sel.audio a v)) := by
  have h : ((wrWord a v).extractLsb' 24 4).toNat = 0 := by
    simp only [BitVec.extractLsb'_toNat, wrWord_toNat, Nat.shiftRight_eq_div_pow]
    omega
  simp only [decode, kindOf_wrWord, wrAddr_wrWord, wrVal_wrWord, h]
  rfl

/-- A field below the kind is a field of the 28 bits below it. -/
theorem kindWord_extract (k : BitVec 4) (r : BitVec 28) (a n : Nat) (h : a + n ≤ 28) :
    (kindWord k r).extractLsb' a n = r.extractLsb' a n := by
  apply BitVec.eq_of_toNat_eq
  simp only [BitVec.extractLsb'_toNat, kindWord_toNat, Nat.shiftRight_eq_div_pow]
  have e : (2 : Nat) ^ 28 = 2 ^ a * (2 ^ n * 2 ^ (28 - a - n)) := by
    rw [← pow_add, ← pow_add]
    congr 1
    omega
  rw [e, show k.toNat * (2 ^ a * (2 ^ n * 2 ^ (28 - a - n))) + r.toNat =
    r.toNat + 2 ^ a * (2 ^ n * (k.toNat * 2 ^ (28 - a - n))) by ring]
  rw [Nat.add_mul_div_left _ _ (by positivity), Nat.add_mul_mod_self_left]

end Sys2Proof.Machine
end

