-- ==== Sys2Proof/Laws/State.lean ====
section
/-! SUPPORT. One lemma per field per update of the state, each true by unfolding, so that no later proof unfolds a record
update. -/

namespace Sys2Proof.Machine

/-! ## State.clearReport -/

@[simp] theorem State.clearReport_args (s : State) : s.clearReport.args = s.args := rfl
@[simp] theorem State.clearReport_cart (s : State) : s.clearReport.cart = s.cart := rfl
@[simp] theorem State.clearReport_active (s : State) : s.clearReport.active = s.active := rfl
@[simp] theorem State.clearReport_bandai (s : State) : s.clearReport.bandai = s.bandai := rfl
@[simp] theorem State.clearReport_mmc (s : State) : s.clearReport.mmc = s.mmc := rfl
@[simp] theorem State.clearReport_sunsoft (s : State) : s.clearReport.sunsoft = s.sunsoft := rfl
@[simp] theorem State.clearReport_view (s : State) : s.clearReport.view = s.view := rfl
@[simp] theorem State.clearReport_sq0 (s : State) : s.clearReport.sq0 = s.sq0 := rfl
@[simp] theorem State.clearReport_sq1 (s : State) : s.clearReport.sq1 = s.sq1 := rfl
@[simp] theorem State.clearReport_da (s : State) : s.clearReport.da = s.da := rfl
@[simp] theorem State.clearReport_saw (s : State) : s.clearReport.saw = s.saw := rfl
@[simp] theorem State.clearReport_line (s : State) : s.clearReport.line = s.line := rfl
@[simp] theorem State.clearReport_prgRom (s : State) : s.clearReport.prgRom = s.prgRom := rfl
@[simp] theorem State.clearReport_chrRom (s : State) : s.clearReport.chrRom = s.chrRom := rfl
@[simp] theorem State.clearReport_ciram (s : State) : s.clearReport.ciram = s.ciram := rfl
@[simp] theorem State.clearReport_stream (s : State) : s.clearReport.stream = s.stream := rfl
@[simp] theorem State.clearReport_pos (s : State) : s.clearReport.pos = s.pos := rfl
@[simp] theorem State.clearReport_out (s : State) : s.clearReport.out = {} := rfl
@[simp] theorem State.clearReport_inputs (s : State) : s.clearReport.inputs = s.inputs := rfl
@[simp] theorem State.clearReport_freeCount (s : State) : s.clearReport.freeCount = s.freeCount := rfl

/-! ## State.raiseIrq -/

@[simp] theorem State.raiseIrq_args (s : State) : s.raiseIrq.args = s.args := rfl
@[simp] theorem State.raiseIrq_cart (s : State) : s.raiseIrq.cart = s.cart := rfl
@[simp] theorem State.raiseIrq_active (s : State) : s.raiseIrq.active = s.active := rfl
@[simp] theorem State.raiseIrq_bandai (s : State) : s.raiseIrq.bandai = s.bandai := rfl
@[simp] theorem State.raiseIrq_mmc (s : State) : s.raiseIrq.mmc = s.mmc := rfl
@[simp] theorem State.raiseIrq_sunsoft (s : State) : s.raiseIrq.sunsoft = s.sunsoft := rfl
@[simp] theorem State.raiseIrq_view (s : State) : s.raiseIrq.view = s.view := rfl
@[simp] theorem State.raiseIrq_sq0 (s : State) : s.raiseIrq.sq0 = s.sq0 := rfl
@[simp] theorem State.raiseIrq_sq1 (s : State) : s.raiseIrq.sq1 = s.sq1 := rfl
@[simp] theorem State.raiseIrq_da (s : State) : s.raiseIrq.da = s.da := rfl
@[simp] theorem State.raiseIrq_saw (s : State) : s.raiseIrq.saw = s.saw := rfl
@[simp] theorem State.raiseIrq_line (s : State) : s.raiseIrq.line = s.line := rfl
@[simp] theorem State.raiseIrq_prgRom (s : State) : s.raiseIrq.prgRom = s.prgRom := rfl
@[simp] theorem State.raiseIrq_chrRom (s : State) : s.raiseIrq.chrRom = s.chrRom := rfl
@[simp] theorem State.raiseIrq_ciram (s : State) : s.raiseIrq.ciram = s.ciram := rfl
@[simp] theorem State.raiseIrq_stream (s : State) : s.raiseIrq.stream = s.stream := rfl
@[simp] theorem State.raiseIrq_pos (s : State) : s.raiseIrq.pos = s.pos := rfl
@[simp] theorem State.raiseIrq_out (s : State) : s.raiseIrq.out = { s.out with irqEdge := true } := rfl
@[simp] theorem State.raiseIrq_inputs (s : State) : s.raiseIrq.inputs = s.inputs := rfl
@[simp] theorem State.raiseIrq_freeCount (s : State) : s.raiseIrq.freeCount = s.freeCount := rfl

/-! ## State.advance -/

@[simp] theorem State.advance_args (s : State) : s.advance.args = s.args := rfl
@[simp] theorem State.advance_cart (s : State) : s.advance.cart = s.cart := rfl
@[simp] theorem State.advance_active (s : State) : s.advance.active = s.active := rfl
@[simp] theorem State.advance_bandai (s : State) : s.advance.bandai = s.bandai := rfl
@[simp] theorem State.advance_mmc (s : State) : s.advance.mmc = s.mmc := rfl
@[simp] theorem State.advance_sunsoft (s : State) : s.advance.sunsoft = s.sunsoft := rfl
@[simp] theorem State.advance_view (s : State) : s.advance.view = s.view := rfl
@[simp] theorem State.advance_sq0 (s : State) : s.advance.sq0 = s.sq0 := rfl
@[simp] theorem State.advance_sq1 (s : State) : s.advance.sq1 = s.sq1 := rfl
@[simp] theorem State.advance_da (s : State) : s.advance.da = s.da := rfl
@[simp] theorem State.advance_saw (s : State) : s.advance.saw = s.saw := rfl
@[simp] theorem State.advance_line (s : State) : s.advance.line = s.line := rfl
@[simp] theorem State.advance_prgRom (s : State) : s.advance.prgRom = s.prgRom := rfl
@[simp] theorem State.advance_chrRom (s : State) : s.advance.chrRom = s.chrRom := rfl
@[simp] theorem State.advance_ciram (s : State) : s.advance.ciram = s.ciram := rfl
@[simp] theorem State.advance_stream (s : State) : s.advance.stream = s.stream := rfl
@[simp] theorem State.advance_pos (s : State) : s.advance.pos = s.pos + 1 := rfl
@[simp] theorem State.advance_out (s : State) : s.advance.out = s.out := rfl
@[simp] theorem State.advance_inputs (s : State) : s.advance.inputs = s.inputs := rfl
@[simp] theorem State.advance_freeCount (s : State) : s.advance.freeCount = s.freeCount := rfl

/-! ## takeInput -/

@[simp] theorem takeInput_args (rest : List Input) (s : State) : (takeInput rest s).args = s.args := rfl
@[simp] theorem takeInput_cart (rest : List Input) (s : State) : (takeInput rest s).cart = s.cart := rfl
@[simp] theorem takeInput_active (rest : List Input) (s : State) : (takeInput rest s).active = s.active := rfl
@[simp] theorem takeInput_bandai (rest : List Input) (s : State) : (takeInput rest s).bandai = s.bandai := rfl
@[simp] theorem takeInput_mmc (rest : List Input) (s : State) : (takeInput rest s).mmc = s.mmc := rfl
@[simp] theorem takeInput_sunsoft (rest : List Input) (s : State) : (takeInput rest s).sunsoft = s.sunsoft := rfl
@[simp] theorem takeInput_view (rest : List Input) (s : State) : (takeInput rest s).view = s.view := rfl
@[simp] theorem takeInput_sq0 (rest : List Input) (s : State) : (takeInput rest s).sq0 = s.sq0 := rfl
@[simp] theorem takeInput_sq1 (rest : List Input) (s : State) : (takeInput rest s).sq1 = s.sq1 := rfl
@[simp] theorem takeInput_da (rest : List Input) (s : State) : (takeInput rest s).da = s.da := rfl
@[simp] theorem takeInput_saw (rest : List Input) (s : State) : (takeInput rest s).saw = s.saw := rfl
@[simp] theorem takeInput_line (rest : List Input) (s : State) : (takeInput rest s).line = s.line := rfl
@[simp] theorem takeInput_prgRom (rest : List Input) (s : State) : (takeInput rest s).prgRom = s.prgRom := rfl
@[simp] theorem takeInput_chrRom (rest : List Input) (s : State) : (takeInput rest s).chrRom = s.chrRom := rfl
@[simp] theorem takeInput_ciram (rest : List Input) (s : State) : (takeInput rest s).ciram = s.ciram := rfl
@[simp] theorem takeInput_stream (rest : List Input) (s : State) : (takeInput rest s).stream = s.stream := rfl
@[simp] theorem takeInput_pos (rest : List Input) (s : State) : (takeInput rest s).pos = s.pos := rfl
@[simp] theorem takeInput_out (rest : List Input) (s : State) : (takeInput rest s).out = s.out := rfl
@[simp] theorem takeInput_inputs (rest : List Input) (s : State) : (takeInput rest s).inputs = rest := rfl
@[simp] theorem takeInput_freeCount (rest : List Input) (s : State) : (takeInput rest s).freeCount = s.freeCount := rfl

/-! ## answerSample -/

@[simp] theorem answerSample_args (n : Nat) (s : State) : (answerSample n s).args = s.args := rfl
@[simp] theorem answerSample_cart (n : Nat) (s : State) : (answerSample n s).cart = s.cart := rfl
@[simp] theorem answerSample_active (n : Nat) (s : State) : (answerSample n s).active = s.active := rfl
@[simp] theorem answerSample_bandai (n : Nat) (s : State) : (answerSample n s).bandai = s.bandai := rfl
@[simp] theorem answerSample_mmc (n : Nat) (s : State) : (answerSample n s).mmc = s.mmc := rfl
@[simp] theorem answerSample_sunsoft (n : Nat) (s : State) : (answerSample n s).sunsoft = s.sunsoft := rfl
@[simp] theorem answerSample_view (n : Nat) (s : State) : (answerSample n s).view = s.view := rfl
@[simp] theorem answerSample_sq0 (n : Nat) (s : State) : (answerSample n s).sq0 = s.sq0 := rfl
@[simp] theorem answerSample_sq1 (n : Nat) (s : State) : (answerSample n s).sq1 = s.sq1 := rfl
@[simp] theorem answerSample_da (n : Nat) (s : State) : (answerSample n s).da = s.da := rfl
@[simp] theorem answerSample_saw (n : Nat) (s : State) : (answerSample n s).saw = s.saw := rfl
@[simp] theorem answerSample_line (n : Nat) (s : State) : (answerSample n s).line = s.line := rfl
@[simp] theorem answerSample_prgRom (n : Nat) (s : State) : (answerSample n s).prgRom = s.prgRom := rfl
@[simp] theorem answerSample_chrRom (n : Nat) (s : State) : (answerSample n s).chrRom = s.chrRom := rfl
@[simp] theorem answerSample_ciram (n : Nat) (s : State) : (answerSample n s).ciram = s.ciram := rfl
@[simp] theorem answerSample_stream (n : Nat) (s : State) : (answerSample n s).stream = s.stream := rfl
@[simp] theorem answerSample_pos (n : Nat) (s : State) : (answerSample n s).pos = s.pos := rfl
@[simp] theorem answerSample_out (n : Nat) (s : State) : (answerSample n s).out = { s.out with sample := some n } := rfl
@[simp] theorem answerSample_inputs (n : Nat) (s : State) : (answerSample n s).inputs = s.inputs := rfl
@[simp] theorem answerSample_freeCount (n : Nat) (s : State) : (answerSample n s).freeCount = s.freeCount := rfl

/-! ## answerInit -/

@[simp] theorem answerInit_args (r : InitResult) (s : State) : (answerInit r s).args = s.args := rfl
@[simp] theorem answerInit_cart (r : InitResult) (s : State) : (answerInit r s).cart = s.cart := rfl
@[simp] theorem answerInit_active (r : InitResult) (s : State) : (answerInit r s).active = s.active := rfl
@[simp] theorem answerInit_bandai (r : InitResult) (s : State) : (answerInit r s).bandai = s.bandai := rfl
@[simp] theorem answerInit_mmc (r : InitResult) (s : State) : (answerInit r s).mmc = s.mmc := rfl
@[simp] theorem answerInit_sunsoft (r : InitResult) (s : State) : (answerInit r s).sunsoft = s.sunsoft := rfl
@[simp] theorem answerInit_view (r : InitResult) (s : State) : (answerInit r s).view = s.view := rfl
@[simp] theorem answerInit_sq0 (r : InitResult) (s : State) : (answerInit r s).sq0 = s.sq0 := rfl
@[simp] theorem answerInit_sq1 (r : InitResult) (s : State) : (answerInit r s).sq1 = s.sq1 := rfl
@[simp] theorem answerInit_da (r : InitResult) (s : State) : (answerInit r s).da = s.da := rfl
@[simp] theorem answerInit_saw (r : InitResult) (s : State) : (answerInit r s).saw = s.saw := rfl
@[simp] theorem answerInit_line (r : InitResult) (s : State) : (answerInit r s).line = s.line := rfl
@[simp] theorem answerInit_prgRom (r : InitResult) (s : State) : (answerInit r s).prgRom = s.prgRom := rfl
@[simp] theorem answerInit_chrRom (r : InitResult) (s : State) : (answerInit r s).chrRom = s.chrRom := rfl
@[simp] theorem answerInit_ciram (r : InitResult) (s : State) : (answerInit r s).ciram = s.ciram := rfl
@[simp] theorem answerInit_stream (r : InitResult) (s : State) : (answerInit r s).stream = s.stream := rfl
@[simp] theorem answerInit_pos (r : InitResult) (s : State) : (answerInit r s).pos = s.pos := rfl
@[simp] theorem answerInit_out (r : InitResult) (s : State) : (answerInit r s).out = { s.out with initResult := some r } := rfl
@[simp] theorem answerInit_inputs (r : InitResult) (s : State) : (answerInit r s).inputs = s.inputs := rfl
@[simp] theorem answerInit_freeCount (r : InitResult) (s : State) : (answerInit r s).freeCount = s.freeCount := rfl

/-! ## pushView -/

@[simp] theorem pushView_args (s : State) : (pushView s).args = s.args := rfl
@[simp] theorem pushView_cart (s : State) : (pushView s).cart = s.cart := rfl
@[simp] theorem pushView_active (s : State) : (pushView s).active = s.active := rfl
@[simp] theorem pushView_bandai (s : State) : (pushView s).bandai = s.bandai := rfl
@[simp] theorem pushView_mmc (s : State) : (pushView s).mmc = s.mmc := rfl
@[simp] theorem pushView_sunsoft (s : State) : (pushView s).sunsoft = s.sunsoft := rfl
@[simp] theorem pushView_view (s : State) : (pushView s).view = viewOf s := rfl
@[simp] theorem pushView_sq0 (s : State) : (pushView s).sq0 = s.sq0 := rfl
@[simp] theorem pushView_sq1 (s : State) : (pushView s).sq1 = s.sq1 := rfl
@[simp] theorem pushView_da (s : State) : (pushView s).da = s.da := rfl
@[simp] theorem pushView_saw (s : State) : (pushView s).saw = s.saw := rfl
@[simp] theorem pushView_line (s : State) : (pushView s).line = s.line := rfl
@[simp] theorem pushView_prgRom (s : State) : (pushView s).prgRom = s.prgRom := rfl
@[simp] theorem pushView_chrRom (s : State) : (pushView s).chrRom = s.chrRom := rfl
@[simp] theorem pushView_ciram (s : State) : (pushView s).ciram = s.ciram := rfl
@[simp] theorem pushView_stream (s : State) : (pushView s).stream = s.stream := rfl
@[simp] theorem pushView_pos (s : State) : (pushView s).pos = s.pos := rfl
@[simp] theorem pushView_out (s : State) : (pushView s).out = s.out := rfl
@[simp] theorem pushView_inputs (s : State) : (pushView s).inputs = s.inputs := rfl
@[simp] theorem pushView_freeCount (s : State) : (pushView s).freeCount = s.freeCount := rfl

/-! ## pushHalf -/

@[simp] theorem pushHalf_args (h : Bool) (s : State) : (pushHalf h s).args = s.args := rfl
@[simp] theorem pushHalf_cart (h : Bool) (s : State) : (pushHalf h s).cart = s.cart := rfl
@[simp] theorem pushHalf_active (h : Bool) (s : State) : (pushHalf h s).active = s.active := rfl
@[simp] theorem pushHalf_bandai (h : Bool) (s : State) : (pushHalf h s).bandai = s.bandai := rfl
@[simp] theorem pushHalf_mmc (h : Bool) (s : State) : (pushHalf h s).mmc = s.mmc := rfl
@[simp] theorem pushHalf_sunsoft (h : Bool) (s : State) : (pushHalf h s).sunsoft = s.sunsoft := rfl
@[simp] theorem pushHalf_view (h : Bool) (s : State) : (pushHalf h s).view = pushChrHalf h s.cart s.mmc s.view := rfl
@[simp] theorem pushHalf_sq0 (h : Bool) (s : State) : (pushHalf h s).sq0 = s.sq0 := rfl
@[simp] theorem pushHalf_sq1 (h : Bool) (s : State) : (pushHalf h s).sq1 = s.sq1 := rfl
@[simp] theorem pushHalf_da (h : Bool) (s : State) : (pushHalf h s).da = s.da := rfl
@[simp] theorem pushHalf_saw (h : Bool) (s : State) : (pushHalf h s).saw = s.saw := rfl
@[simp] theorem pushHalf_line (h : Bool) (s : State) : (pushHalf h s).line = s.line := rfl
@[simp] theorem pushHalf_prgRom (h : Bool) (s : State) : (pushHalf h s).prgRom = s.prgRom := rfl
@[simp] theorem pushHalf_chrRom (h : Bool) (s : State) : (pushHalf h s).chrRom = s.chrRom := rfl
@[simp] theorem pushHalf_ciram (h : Bool) (s : State) : (pushHalf h s).ciram = s.ciram := rfl
@[simp] theorem pushHalf_stream (h : Bool) (s : State) : (pushHalf h s).stream = s.stream := rfl
@[simp] theorem pushHalf_pos (h : Bool) (s : State) : (pushHalf h s).pos = s.pos := rfl
@[simp] theorem pushHalf_out (h : Bool) (s : State) : (pushHalf h s).out = s.out := rfl
@[simp] theorem pushHalf_inputs (h : Bool) (s : State) : (pushHalf h s).inputs = s.inputs := rfl
@[simp] theorem pushHalf_freeCount (h : Bool) (s : State) : (pushHalf h s).freeCount = s.freeCount := rfl

/-! ## pushNts -/

@[simp] theorem pushNts_args (s : State) : (pushNts s).args = s.args := rfl
@[simp] theorem pushNts_cart (s : State) : (pushNts s).cart = s.cart := rfl
@[simp] theorem pushNts_active (s : State) : (pushNts s).active = s.active := rfl
@[simp] theorem pushNts_bandai (s : State) : (pushNts s).bandai = s.bandai := rfl
@[simp] theorem pushNts_mmc (s : State) : (pushNts s).mmc = s.mmc := rfl
@[simp] theorem pushNts_sunsoft (s : State) : (pushNts s).sunsoft = s.sunsoft := rfl
@[simp] theorem pushNts_view (s : State) : (pushNts s).view = pushNt s.cart s.sunsoft s.view := rfl
@[simp] theorem pushNts_sq0 (s : State) : (pushNts s).sq0 = s.sq0 := rfl
@[simp] theorem pushNts_sq1 (s : State) : (pushNts s).sq1 = s.sq1 := rfl
@[simp] theorem pushNts_da (s : State) : (pushNts s).da = s.da := rfl
@[simp] theorem pushNts_saw (s : State) : (pushNts s).saw = s.saw := rfl
@[simp] theorem pushNts_line (s : State) : (pushNts s).line = s.line := rfl
@[simp] theorem pushNts_prgRom (s : State) : (pushNts s).prgRom = s.prgRom := rfl
@[simp] theorem pushNts_chrRom (s : State) : (pushNts s).chrRom = s.chrRom := rfl
@[simp] theorem pushNts_ciram (s : State) : (pushNts s).ciram = s.ciram := rfl
@[simp] theorem pushNts_stream (s : State) : (pushNts s).stream = s.stream := rfl
@[simp] theorem pushNts_pos (s : State) : (pushNts s).pos = s.pos := rfl
@[simp] theorem pushNts_out (s : State) : (pushNts s).out = s.out := rfl
@[simp] theorem pushNts_inputs (s : State) : (pushNts s).inputs = s.inputs := rfl
@[simp] theorem pushNts_freeCount (s : State) : (pushNts s).freeCount = s.freeCount := rfl

/-! ## resetAll -/

@[simp] theorem resetAll_args (s : State) : (resetAll s).args = s.args := rfl
@[simp] theorem resetAll_cart (s : State) : (resetAll s).cart = s.cart := rfl
@[simp] theorem resetAll_active (s : State) : (resetAll s).active = s.active := rfl
@[simp] theorem resetAll_bandai (s : State) : (resetAll s).bandai = bandaiReset s.cart.headerMirroring := rfl
@[simp] theorem resetAll_mmc (s : State) : (resetAll s).mmc = mmcReset s.cart.headerMirroring := rfl
@[simp] theorem resetAll_sunsoft (s : State) : (resetAll s).sunsoft = sunsoftReset s.cart.headerMirroring := rfl
@[simp] theorem resetAll_view (s : State) : (resetAll s).view = s.view := rfl
@[simp] theorem resetAll_sq0 (s : State) : (resetAll s).sq0 = squareReset s.args := rfl
@[simp] theorem resetAll_sq1 (s : State) : (resetAll s).sq1 = squareReset s.args := rfl
@[simp] theorem resetAll_da (s : State) : (resetAll s).da = 0 := rfl
@[simp] theorem resetAll_saw (s : State) : (resetAll s).saw = sawReset s.args := rfl
@[simp] theorem resetAll_line (s : State) : (resetAll s).line = s.line := rfl
@[simp] theorem resetAll_prgRom (s : State) : (resetAll s).prgRom = s.prgRom := rfl
@[simp] theorem resetAll_chrRom (s : State) : (resetAll s).chrRom = s.chrRom := rfl
@[simp] theorem resetAll_ciram (s : State) : (resetAll s).ciram = s.ciram := rfl
@[simp] theorem resetAll_stream (s : State) : (resetAll s).stream = s.stream := rfl
@[simp] theorem resetAll_pos (s : State) : (resetAll s).pos = s.pos := rfl
@[simp] theorem resetAll_out (s : State) : (resetAll s).out = s.out := rfl
@[simp] theorem resetAll_inputs (s : State) : (resetAll s).inputs = s.inputs := rfl
@[simp] theorem resetAll_freeCount (s : State) : (resetAll s).freeCount = s.freeCount := rfl

/-! ## The report -/

@[simp] theorem State.clearReport_clearReport (s : State) : s.clearReport.clearReport = s.clearReport := rfl

@[simp] theorem State.clearReport_selection (s : State) : s.clearReport.selection = s.selection := rfl

@[simp] theorem takeInput_selection (rest : List Input) (s : State) : (takeInput rest s).selection = s.selection := rfl

@[simp] theorem State.clearReport_viewOf (s : State) : viewOf s.clearReport = viewOf s := rfl

end Sys2Proof.Machine
end

