-- ==== Sys2Proof/Laws/Ops.lean ====
section
/-! SUPPORT. What each shared operation can do, said once: who is addressed, the pushes to the view in arithmetic, the
page masks as remainders, and the integers of the save stream. -/

namespace Sys2Proof.Machine

/-! ## The common shells of the meanings -/

theorem whenReady_of_ne (s : State) (f : State → Result) (h : s.active ≠ .none) : whenReady s f = f s.clearReport := by
  simp [whenReady, h]

theorem whenReady_of_none (s : State) (f : State → Result) (h : s.active = .none) :
    whenReady s f = .refused .notInitialised := by
  simp [whenReady, h]

theorem whenReady_next (s t : State) (f : State → Result) :
    whenReady s f = .next t ↔ s.active ≠ .none ∧ f s.clearReport = .next t := by
  by_cases h : s.active = .none <;> simp [whenReady, h]

theorem ready_of_ne (s : State) (f : State → State) (h : s.active ≠ .none) : ready s f = .next (f s.clearReport) :=
  whenReady_of_ne s _ h

theorem ready_next (s t : State) (f : State → State) :
    ready s f = .next t ↔ s.active ≠ .none ∧ t = f s.clearReport := by
  rw [ready, whenReady_next]
  simp [eq_comm (a := t)]

theorem onMapper_of_mem (ms : List Active) (s : State) (f : State → State) (hn : s.active ≠ .none) (h : s.active ∈ ms) :
    onMapper ms s f = .next (f s.clearReport) := by
  simp [onMapper, ready_of_ne _ _ hn, h]

theorem onMapper_next (ms : List Active) (s t : State) (f : State → State) :
    onMapper ms s f = .next t ↔
      s.active ≠ .none ∧ t = if s.active ∈ ms then f s.clearReport else s.clearReport := by
  rw [onMapper, ready_next]
  rfl

theorem onAudio_of_eq (o : AudioOption) (s : State) (f : State → State) (hn : s.active ≠ .none)
    (h : s.cart.audioOption = o) : onAudio o s f = .next (f s.clearReport) := by
  simp [onAudio, ready_of_ne _ _ hn, h]

theorem onAudio_next (o : AudioOption) (s t : State) (f : State → State) :
    onAudio o s f = .next t ↔
      s.active ≠ .none ∧ t = if s.cart.audioOption = o then f s.clearReport else s.clearReport := by
  rw [onAudio, ready_next]
  rfl

theorem andThen_next (r : Result) (f : State → Result) (t : State) :
    andThen r f = .next t ↔ ∃ u, r = .next u ∧ f u = .next t := by
  cases r <;> simp [andThen]

/-- A mapper's or audio module's write never changes what is active or claimed, if its effect does not. -/
theorem onMapper_claimed (ms : List Active) (s t : State) (f : State → State) (h : onMapper ms s f = .next t)
    (ha : ∀ u : State, (f u).active = u.active) : t.active = s.active := by
  obtain ⟨-, rfl⟩ := (onMapper_next ms s t f).mp h
  split <;> simp [ha]

/-! ## Powers of two and page masks -/

theorem PowerOfTwo.pos {n : Nat} (h : PowerOfTwo n) : 0 < n := by
  obtain ⟨k, rfl⟩ := h
  positivity

theorem PowerOfTwo.double {n : Nat} (h : PowerOfTwo n) : PowerOfTwo (2 * n) := by
  obtain ⟨k, rfl⟩ := h
  exact ⟨k + 1, by ring⟩

theorem PowerOfTwo.four {n : Nat} (h : PowerOfTwo n) : PowerOfTwo (4 * n) := by
  obtain ⟨k, rfl⟩ := h
  exact ⟨k + 2, by ring⟩

theorem PowerOfTwo.eight {n : Nat} (h : PowerOfTwo n) : PowerOfTwo (8 * n) := by
  obtain ⟨k, rfl⟩ := h
  exact ⟨k + 3, by ring⟩

/-- A masked page of a power-of-two count is the remainder (10_state.md R22). -/
theorem maskPage_eq_mod {n : Nat} (h : PowerOfTwo n) (p : Byte) : maskPage n p = p.toNat % n := by
  obtain ⟨k, rfl⟩ := h
  exact Nat.and_two_pow_sub_one_eq_mod _ _

theorem maskPage_lt {n : Nat} (h : 0 < n) (p : Byte) : maskPage n p < n := by
  have := @Nat.and_le_right p.toNat (n - 1)
  simp only [maskPage]
  omega

/-- INIT's page-shape test is the arithmetic one (46_lifecycle.md R360). -/
theorem isPow2_iff (n : Byte) : isPow2 n = true ↔ PowerOfTwo n.toNat := by
  constructor
  · intro h
    obtain ⟨k, -, hk⟩ := List.any_eq_true.mp h
    exact ⟨k, by simpa using hk⟩
  · rintro ⟨k, hk⟩
    refine List.any_eq_true.mpr ⟨k, ?_, by simpa using hk⟩
    have h256 : (2 : Nat) ^ k < 2 ^ 8 := hk ▸ n.isLt
    exact List.mem_range.mpr ((Nat.pow_lt_pow_iff_right (by decide)).mp h256)

/-! ## Pushes in arithmetic -/

/-- Two page lists with the same pages are equal. -/
theorem vector_ext_fin {α : Type} {n : Nat} {u v : Vector α n} (h : ∀ i : Fin n, u[i.val] = v[i.val]) : u = v :=
  Vector.ext fun i hi => h ⟨i, hi⟩

/-- A 16 KiB page p in window w: slot n of that window shows page 2p + (n mod 2) (00_scope.md R8). -/
theorem selectPrg16_eq (w : Fin 2) (p : Nat) (b : BusView) :
    selectPrg16 w p b = { b with
      prgSlot := Vector.ofFn fun n => if n.val / 2 = w.val then 2 * p + n.val % 2 else b.prgSlot[n] } := by
  simp only [selectPrg16, selectPrg8, BusView.mk.injEq, and_true]
  refine vector_ext_fin fun i => ?_
  fin_cases w <;> fin_cases i <;> simp [prg16Slot]

theorem selectPrg16_low_eq (p : Nat) (b : BusView) :
    selectPrg16 0 p b = { b with prgSlot := withLow16 p b.prgSlot } := by
  rw [selectPrg16_eq]
  simp only [BusView.mk.injEq, and_true]
  refine vector_ext_fin fun i => ?_
  fin_cases i <;> simp [withLow16]

/-- SelectNt changes one name table. -/
@[simp] theorem selectNt_ntSrc (t : Fin 4) (src : NtSource) (b : BusView) :
    (selectNt t src b).ntSrc = b.ntSrc.set t.val src t.isLt := rfl
@[simp] theorem selectNt_prgSlot (t : Fin 4) (src : NtSource) (b : BusView) : (selectNt t src b).prgSlot = b.prgSlot := rfl
@[simp] theorem selectNt_chrSlot (t : Fin 4) (src : NtSource) (b : BusView) : (selectNt t src b).chrSlot = b.chrSlot := rfl

/-- The four selections together replace nt_src. -/
@[simp] theorem selectNts_eq (src : Vector NtSource 4) (b : BusView) : selectNts src b = { b with ntSrc := src } := by
  simp only [selectNts, selectNt, BusView.mk.injEq, true_and]
  refine vector_ext_fin fun i => ?_
  fin_cases i <;> simp

theorem selectChr4_eq (h : Bool) (q : Nat) (b : BusView) :
    selectChr4 h q b = { b with chrSlot := withChrHalf h.toNat q b.chrSlot } := by
  simp only [selectChr4, selectChr1, BusView.mk.injEq, and_true, true_and]
  refine vector_ext_fin fun i => ?_
  cases h <;> fin_cases i <;> simp [withChrHalf, halfBlock]

theorem selectChr2_eq (w : Fin 4) (q : Nat) (b : BusView) :
    selectChr2 w q b = { b with chrSlot := withChrPair w.val q b.chrSlot } := by
  simp only [selectChr2, selectChr1, BusView.mk.injEq, and_true, true_and]
  refine vector_ext_fin fun i => ?_
  fin_cases w <;> fin_cases i <;> simp [withChrPair, pairBlock]

/-- The SetMirroring table, table by table (10_state.md R32). -/
theorem mirrorTable_eq (m : MirrorMode) : mirrorTable m = ciramTables m := by
  refine vector_ext_fin fun i => ?_
  cases m <;> fin_cases i <;> simp [mirrorTable, ciramTables, bankOf]

@[simp] theorem pushChrHalf_prgSlot (h : Bool) (c : Cartridge) (r : MmcRegs) (b : BusView) :
    (pushChrHalf h c r b).prgSlot = b.prgSlot := by
  simp [pushChrHalf, selectChr4_eq]

@[simp] theorem pushChrHalf_ntSrc (h : Bool) (c : Cartridge) (r : MmcRegs) (b : BusView) :
    (pushChrHalf h c r b).ntSrc = b.ntSrc := by
  simp [pushChrHalf, selectChr4_eq]

/-- Pushing a half leaves the other half's blocks and sets its own to the view's (41_mmc2_mmc4.md R184, R185). -/
theorem pushChrHalf_eq (h : Bool) (c : Cartridge) (r : MmcRegs) (b : BusView) :
    pushChrHalf h c r b =
      { b with chrSlot := withChrHalf h.toNat (maskPage c.chr4 (latchedChr h r)) b.chrSlot } :=
  selectChr4_eq _ _ _

/-- Replacing half 0 or 1 of two known halves. -/
theorem withChrHalf_chrHalves (h : Bool) (q q0 q1 : Nat) :
    withChrHalf h.toNat q (chrHalves q0 q1) = if h then chrHalves q0 q else chrHalves q q1 := by
  refine vector_ext_fin fun i => ?_
  cases h <;> fin_cases i <;> simp [withChrHalf, chrHalves]

/-- Pushing the same half again with the same page changes nothing. -/
theorem withChrHalf_idem (n q : Nat) (v : Vector Nat 8) : withChrHalf n q (withChrHalf n q v) = withChrHalf n q v := by
  refine vector_ext_fin fun i => ?_
  simp only [withChrHalf, Vector.getElem_ofFn]
  split <;> rfl

/-! ## Bits as arithmetic -/

theorem getLsbD_zero_eq (v : Byte) : v.getLsbD 0 = decide (v.toNat % 2 = 1) := by
  rw [BitVec.getLsbD, Nat.testBit_zero]

/-- The same in simp's normal form. -/
theorem bit0_eq (v : Byte) : v[0] = decide (v.toNat % 2 = 1) := getLsbD_zero_eq v

theorem low2_eq (v : Byte) : low2 v = BitVec.ofNat 2 v.toNat := by
  apply BitVec.eq_of_toNat_eq
  simp [low2, BitVec.extractLsb'_toNat]

/-- Bit 4 of a byte. -/
theorem bit4_eq (v : Byte) : v.getLsbD 4 = decide (v.toNat / 16 % 2 = 1) := by
  rw [BitVec.getLsbD, Nat.testBit, Nat.shiftRight_eq_div_pow]
  have h : v.toNat / 2 ^ 4 % 2 = 0 ∨ v.toNat / 2 ^ 4 % 2 = 1 := by omega
  rcases h with e | e <;> simp_all [Nat.one_and_eq_mod_two]

/-- P[12] of a pattern address. -/
theorem ppuHalf_eq (p : PpuAddr) (h : p.toNat < 0x2000) : ppuHalf p = decide (p.toNat / 4096 = 1) := by
  rw [ppuHalf, BitVec.getLsbD, Nat.testBit, Nat.shiftRight_eq_div_pow]
  have h2 : p.toNat / 2 ^ 12 = 0 ∨ p.toNat / 2 ^ 12 = 1 := by omega
  rcases h2 with e | e <;> simp [show p.toNat / 4096 = _ from e]

/-- P[13] of a PPU address. -/
theorem ppuBeyondPatterns_eq (p : PpuAddr) : ppuBeyondPatterns p = decide (0x2000 ≤ p.toNat) := by
  have := p.isLt
  rw [ppuBeyondPatterns, BitVec.getLsbD, Nat.testBit, Nat.shiftRight_eq_div_pow]
  have h2 : p.toNat / 2 ^ 13 = 0 ∨ p.toNat / 2 ^ 13 = 1 := by omega
  rcases h2 with e | e <;> rw [e] <;> simp <;> omega

/-- P[11:4] of a PPU address. -/
theorem ppuTile_toNat (p : PpuAddr) : (ppuTile p).toNat = p.toNat / 16 % 256 := by
  simp [ppuTile, BitVec.extractLsb'_toNat, Nat.shiftRight_eq_div_pow]

/-- A tile index known as a number. -/
theorem ppuTile_of (p : PpuAddr) (t : Byte) (h : p.toNat / 16 % 256 = t.toNat) : ppuTile p = t :=
  BitVec.eq_of_toNat_eq (by rw [ppuTile_toNat, h])

theorem modeOf_codeOf (m : MirrorMode) : modeOf (codeOf m) = m := by
  cases m <;> rfl

theorem codeOf_modeOf (c : BitVec 2) : codeOf (modeOf c) = c := by
  revert c
  decide

/-- What SUNSOFT's PushNt selects, table by table (42_sunsoft.md R215). -/
theorem sunsoftNts_eq (c : Cartridge) (r : SunsoftRegs) (h : PowerOfTwo c.chrPages.toNat) :
    sunsoftNts c r = sunsoftTables (8 * c.chrPages.toNat) r.nt r.ntctl := by
  refine vector_ext_fin fun i => ?_
  simp only [sunsoftNts, sunsoftTables, bit4_eq, low2_eq, ntBankPage, Cartridge.chr1, maskPage_eq_mod h.eight,
    Vector.getElem_ofFn, mirrorTable_eq]
  by_cases hx : r.ntctl.toNat / 16 % 2 = 1
  · simp only [hx, decide_true, if_true]
    obtain ⟨m, hm⟩ : ∃ m, modeOf (BitVec.ofNat 2 r.ntctl.toNat) = m := ⟨_, rfl⟩
    simp only [hm]
    cases m <;> fin_cases i <;> simp [bankOf]
  · simp [hx, ciramTables]

/-! ## The interrupt counter -/

/-- A commit leaves max(C − D, 0) in an enabled counter (43_irq.md R241). -/
theorem commitRegs_counter (d : Nat) (r : BandaiRegs) (h : r.irqEnable = true) :
    (commitRegs d r).irqCounter.toNat = r.irqCounter.toNat - d := by
  by_cases hc : r.irqCounter.toNat ≤ d
  · simp [commitRegs, h, hc, Nat.sub_eq_zero_of_le hc]
  · have := r.irqCounter.isLt
    simp [commitRegs, h, hc]
    omega

/-- A commit disables the counter exactly when it fires (43_irq.md R240). -/
theorem commitRegs_enable (d : Nat) (r : BandaiRegs) :
    (commitRegs d r).irqEnable = (r.irqEnable && !commitFires d r) := by
  cases h : r.irqEnable <;> by_cases hc : r.irqCounter.toNat ≤ d <;> simp [commitRegs, commitFires, h, hc]

@[simp] theorem commitRegs_latch (d : Nat) (r : BandaiRegs) : (commitRegs d r).irqLatch = r.irqLatch := by
  unfold commitRegs
  split
  · split <;> rfl
  · rfl

/-- PREDICT on an enabled counter answers TRIGGER exactly when a commit fires (43_irq.md R243). -/
theorem predictCopy_eq (d : Nat) (r : BandaiRegs) (h : r.irqEnable = true) :
    predictCopy d r = .trigger ↔ commitFires d r = true := by
  simp [predictCopy, commitFires, h]

/-! ## The integers of the save stream -/

@[simp] theorem leBytes_length (k n : Nat) : (leBytes k n).length = k := by
  induction k generalizing n with
  | zero => rfl
  | succ k ih => simp [leBytes, ih]

/-- The bytes written are the little-endian ones (20_memory.md R81). -/
theorem leBytes_eq (k n : Nat) : leBytes k n = littleEndian k n := by
  induction k generalizing n with
  | zero => rfl
  | succ k ih =>
    rw [leBytes, ih, littleEndian, littleEndian, List.range_succ_eq_map, List.map_cons, List.map_map]
    simp only [pow_zero, Nat.div_one, List.cons.injEq, true_and]
    refine List.map_congr_left fun i _ => ?_
    simp only [Function.comp]
    rw [Nat.div_div_eq_div_mul, pow_succ']

/-- An integer that fits comes back from its bytes. -/
theorem fromLe_leBytes (k n : Nat) (h : n < 256 ^ k) : fromLe (leBytes k n) = n := by
  induction k generalizing n with
  | zero => simp [leBytes, fromLe]; omega
  | succ k ih =>
    have h2 : n / 256 < 256 ^ k := by
      rw [pow_succ] at h
      exact Nat.div_lt_of_lt_mul (by omega)
    simp only [leBytes, fromLe, ih _ h2, BitVec.toNat_ofNat]
    omega

/-- Bytes come back from their integer. -/
theorem leBytes_fromLe (l : List Byte) : leBytes l.length (fromLe l) = l := by
  induction l with
  | nil => rfl
  | cons b rest ih =>
    have hb := b.isLt
    have h1 : BitVec.ofNat 8 (b.toNat + 256 * fromLe rest) = b := by
      apply BitVec.eq_of_toNat_eq
      simp only [BitVec.toNat_ofNat]
      omega
    have h2 : (b.toNat + 256 * fromLe rest) / 256 = fromLe rest := by omega
    simp [leBytes, fromLe, h1, h2, ih]

/-- An integer of `k` bytes is below 256 to the k. -/
theorem fromLe_lt (l : List Byte) : fromLe l < 256 ^ l.length := by
  induction l with
  | nil => simp [fromLe]
  | cons b rest ih =>
    have hb := b.isLt
    simp only [fromLe, List.length_cons, pow_succ]
    omega

end Sys2Proof.Machine
end

