-- ==== Sys2Proof/Laws/Frames.lean ====
section
/-! SUPPORT. What each larger operation leaves unchanged, said once. -/

namespace Sys2Proof.Machine

/-! ## The latch machine and the renderer -/

/-- PPU_LATCH may change the latches and chr_slot, and nothing else (41_mmc2_mmc4.md R180). -/
theorem latchCheck_frame (p : PpuAddr) (s : State) :
    latchCheck p s = { s with
      mmc := { s.mmc with latch0 := (latchCheck p s).mmc.latch0, latch1 := (latchCheck p s).mmc.latch1 }
      view := { s.view with chrSlot := (latchCheck p s).view.chrSlot } } := by
  unfold latchCheck
  split
  · simp only [pushHalf, pushChrHalf_eq, setLatch]
    split <;> rfl
  · rfl

theorem tileLatch_frame (v : BitVec 15) (bgSel : Bool) (s : State) (i : Nat) :
    tileLatch v bgSel s i = { s with
      mmc := { s.mmc with latch0 := (tileLatch v bgSel s i).mmc.latch0, latch1 := (tileLatch v bgSel s i).mmc.latch1 }
      view := { s.view with chrSlot := (tileLatch v bgSel s i).view.chrSlot } } := by
  unfold tileLatch
  simp only
  split
  · exact latchCheck_frame _ _
  · rfl

/-- One state differs from another in LINE, the latches and chr_slot only. -/
def SameBesideLine (s t : State) : Prop :=
  t = { s with
    line := t.line
    mmc := { s.mmc with latch0 := t.mmc.latch0, latch1 := t.mmc.latch1 }
    view := { s.view with chrSlot := t.view.chrSlot } }

theorem SameBesideLine.refl (s : State) : SameBesideLine s s := rfl

theorem SameBesideLine.trans {s t u : State} (h1 : SameBesideLine s t) (h2 : SameBesideLine t u) : SameBesideLine s u := by
  unfold SameBesideLine at *
  rw [h1] at h2
  exact h2

theorem renderTile_frame (v : BitVec 15) (fineX : BitVec 3) (bgSel leftClip : Bool) (s : State) (i : Nat) :
    SameBesideLine s (renderTile v fineX bgSel leftClip s i) := by
  unfold SameBesideLine renderTile
  simp only
  rw [tileLatch_frame v bgSel s i]

theorem foldl_frame (v : BitVec 15) (fineX : BitVec 3) (bgSel leftClip : Bool) (l : List Nat) (s : State) :
    SameBesideLine s (l.foldl (renderTile v fineX bgSel leftClip) s) := by
  induction l generalizing s with
  | nil => exact SameBesideLine.refl s
  | cons i rest ih => exact (renderTile_frame v fineX bgSel leftClip s i).trans (ih _)

/-- The walk writes LINE and may change the latches and chr_slot (44_bg_renderer.md R260). -/
theorem renderTiles_frame (v : BitVec 15) (fineX : BitVec 3) (bgSel leftClip : Bool) (s : State) :
    SameBesideLine s (renderTiles v fineX bgSel leftClip s) := foldl_frame v fineX bgSel leftClip _ s

/-- RENDER_LINE likewise, beside the model's count of free values. -/
theorem renderLine_frame (v : BitVec 15) (fineX : BitVec 3) (bgSel leftClip bgEnabled widthOk : Bool) (s : State) :
    SameBesideLine { s with freeCount := (renderLine v fineX bgSel leftClip bgEnabled widthOk s).freeCount }
      (renderLine v fineX bgSel leftClip bgEnabled widthOk s) := by
  unfold renderLine
  split
  · simp only
    split
    · have h := renderTiles_frame v fineX bgSel leftClip { s with line := lineFill }
      unfold SameBesideLine at *
      rw [h]
    · rfl
  · rfl

/-! ## The lifecycle -/

/-- RESET changes the register files, the view and the audio state only (46_lifecycle.md R366). -/
theorem resetBlock_frame (s : State) :
    resetBlock s = { s with
      bandai := (resetBlock s).bandai, mmc := (resetBlock s).mmc, sunsoft := (resetBlock s).sunsoft
      view := (resetBlock s).view, sq0 := (resetBlock s).sq0, sq1 := (resetBlock s).sq1
      da := (resetBlock s).da, saw := (resetBlock s).saw } := by
  unfold resetBlock resetAudio resetMapper pushView
  cases h : s.active <;> cases s.cart.audioOption <;> simp [h]

/-- RESET leaves the state of components that the cartridge lacks (46_lifecycle.md R366). -/
theorem resetBlock_absentKept (s : State) : AbsentKept s (resetBlock s) := by
  unfold AbsentKept resetBlock resetAudio resetMapper pushView
  cases s.active <;> cases s.cart.audioOption <;> simp

/-- A LOAD's mapper part changes one register file. -/
theorem loadMapper_frame (l : List Byte) (s t : State) (h : loadMapper l s = some t) :
    t = { s with bandai := t.bandai, mmc := t.mmc, sunsoft := t.sunsoft } := by
  unfold loadMapper at h
  split at h <;> simp only [Option.some.injEq, Option.map_eq_some_iff] at h
  · subst h; rfl
  · obtain ⟨r, -, rfl⟩ := h; rfl
  · obtain ⟨r, -, rfl⟩ := h; rfl
  · obtain ⟨r, -, rfl⟩ := h; rfl
  · subst h; rfl

/-- A LOAD's audio part changes the audio state. -/
theorem loadAudio_frame (l : List Byte) (s t : State) (h : loadAudio l s = some t) :
    t = { s with sq0 := t.sq0, sq1 := t.sq1, da := t.da, saw := t.saw } := by
  unfold loadAudio at h
  split at h
  · simp only [Option.some.injEq] at h
    subst h; rfl
  · split at h
    · simp only [Option.some.injEq] at h
      subst h; rfl
    · cases h
  · simp only [Option.map_eq_some_iff] at h
    obtain ⟨r, -, rfl⟩ := h; rfl

/-- LOAD changes the registers, the view, the audio state and the stream only (46_lifecycle.md R369). -/
theorem loadBlock_frame (s t : State) (h : loadBlock s = some t) :
    t = { s with
      bandai := t.bandai, mmc := t.mmc, sunsoft := t.sunsoft, view := t.view
      sq0 := t.sq0, sq1 := t.sq1, da := t.da, saw := t.saw, stream := t.stream } := by
  unfold loadBlock at h
  split at h
  · cases h
  · split at h
    · cases h
    · rename_i u hu
      split at h
      · cases h
      · rename_i w hw
        simp only [Option.some.injEq] at h
        subst h
        rw [loadAudio_frame _ _ _ hw, loadMapper_frame _ _ _ hu]

/-- What a LOAD is made of. -/
theorem loadBlock_some (s t : State) (h : loadBlock s = some t) :
    payloadLen s ≤ s.stream.length ∧ ∃ u w, loadMapper s.stream s = some u ∧
      loadAudio (s.stream.drop (mapperLen s.active)) u = some w ∧
      t = { w with view := viewOf w, stream := s.stream.drop (payloadLen s) } := by
  unfold loadBlock at h
  split at h
  · cases h
  · rename_i hl
    split at h
    · cases h
    · rename_i u hu
      split at h
      · cases h
      · rename_i w hw
        exact ⟨by omega, u, w, hu, hw, by simpa using h.symm⟩

/-- The mapper part of a LOAD leaves the register files of the variants that are not active. -/
theorem loadMapper_absentKept (l : List Byte) (s t : State) (h : loadMapper l s = some t) : AbsentKept s t := by
  unfold AbsentKept
  cases ha : s.active <;> simp only [loadMapper, ha, Option.some.injEq, Option.map_eq_some_iff] at h
  · subst h; simp
  · obtain ⟨r, -, rfl⟩ := h; simp
  · obtain ⟨r, -, rfl⟩ := h; simp
  · obtain ⟨r, -, rfl⟩ := h; simp
  · subst h; simp

/-- The audio part of a LOAD leaves the state of an audio module that is absent. -/
theorem loadAudio_absentKept (l : List Byte) (s t : State) (h : loadAudio l s = some t) : AbsentKept s t := by
  rw [loadAudio_frame l s t h]
  unfold AbsentKept
  cases ha : s.cart.audioOption <;> simp only [loadAudio, ha] at h
  · cases h; simp
  · split at h
    · cases h; simp
    · cases h
  · simp only [Option.map_eq_some_iff] at h
    obtain ⟨r, -, rfl⟩ := h; simp

/-- LOAD leaves the state of components that the cartridge lacks (46_lifecycle.md R369). -/
theorem loadBlock_absentKept (s t : State) (h : loadBlock s = some t) : AbsentKept s t := by
  obtain ⟨-, u, w, hu, hw, rfl⟩ := loadBlock_some s t h
  have h1 := loadMapper_absentKept _ _ _ hu
  have h2 := loadAudio_absentKept _ _ _ hw
  have ea : u.active = s.active := by rw [loadMapper_frame _ _ _ hu]
  have eo : u.cart = s.cart := by rw [loadMapper_frame _ _ _ hu]
  have em : s.sq0 = u.sq0 ∧ s.sq1 = u.sq1 ∧ s.da = u.da ∧ s.saw = u.saw := by rw [loadMapper_frame _ _ _ hu]; simp
  have er : w.bandai = u.bandai ∧ w.mmc = u.mmc ∧ w.sunsoft = u.sunsoft := by rw [loadAudio_frame _ _ _ hw]; simp
  unfold AbsentKept at *
  simp_all

/-- A phase that LOAD reads fits its 64 bits. -/
theorem natAt_lt (l : List Byte) (i k : Nat) : natAt l i k < 256 ^ k := by
  unfold natAt
  exact Nat.lt_of_lt_of_le (fromLe_lt _) (Nat.pow_le_pow_right (by decide) (by simp))

/-- SAMPLE changes the audio channels and the report only (45_audio.md R320). -/
theorem sampleChip_frame (s : State) :
    sampleChip s = { s with
      sq0 := (sampleChip s).sq0, sq1 := (sampleChip s).sq1, saw := (sampleChip s).saw, out := (sampleChip s).out } := by
  unfold sampleChip answerSample
  cases s.cart.audioOption <;> rfl

/-- A commit changes the BANDAI registers and the report only (43_irq.md R240). -/
theorem commit_frame (s : State) : commit s = { s with bandai := (commit s).bandai, out := (commit s).out } := by
  unfold commit State.raiseIrq
  split <;> rfl

end Sys2Proof.Machine
end

