-- ==== Sys2Proof/Laws/Meanings.lean ====
section
/-! SUPPORT. Everything each instruction can do, said once: what holds when it answers a next state. Later proofs cite these
and never unfold a meaning. -/

namespace Sys2Proof.Machine

/-! ## Bus writes: the effect where the component is present, else only a clear report -/

/-- A mapper's write, seen from a next state. -/
theorem onMapper_inv {ms : List Active} {s t : State} {f : State → State} (h : onMapper ms s f = .next t) :
    s.active ≠ .none ∧ (t = s.clearReport ∨ s.active ∈ ms ∧ t = f s.clearReport) := by
  obtain ⟨hn, rfl⟩ := (onMapper_next _ _ _ _).mp h
  refine ⟨hn, ?_⟩
  split
  · exact .inr ⟨‹_›, rfl⟩
  · exact .inl rfl

/-- An audio module's write, seen from a next state. -/
theorem onAudio_inv {o : AudioOption} {s t : State} {f : State → State} (h : onAudio o s f = .next t) :
    s.active ≠ .none ∧ (t = s.clearReport ∨ s.cart.audioOption = o ∧ t = f s.clearReport) := by
  obtain ⟨hn, rfl⟩ := (onAudio_next _ _ _ _).mp h
  refine ⟨hn, ?_⟩
  split
  · exact .inr ⟨‹_›, rfl⟩
  · exact .inl rfl

theorem exec_bandaiChr0_inv {s t : State} (a : Addr) (v : Byte) (h : exec (.bandaiChr0 a v) s = .next t) :
    s.active ≠ .none ∧ (t = s.clearReport ∨ s.active = .bandai ∧ t = bandaiChr 0 v s.clearReport) := by
  simpa using onMapper_inv h

theorem exec_bandaiChr1_inv {s t : State} (a : Addr) (v : Byte) (h : exec (.bandaiChr1 a v) s = .next t) :
    s.active ≠ .none ∧ (t = s.clearReport ∨ s.active = .bandai ∧ t = bandaiChr 1 v s.clearReport) := by
  simpa using onMapper_inv h

theorem exec_bandaiChr2_inv {s t : State} (a : Addr) (v : Byte) (h : exec (.bandaiChr2 a v) s = .next t) :
    s.active ≠ .none ∧ (t = s.clearReport ∨ s.active = .bandai ∧ t = bandaiChr 2 v s.clearReport) := by
  simpa using onMapper_inv h

theorem exec_bandaiChr3_inv {s t : State} (a : Addr) (v : Byte) (h : exec (.bandaiChr3 a v) s = .next t) :
    s.active ≠ .none ∧ (t = s.clearReport ∨ s.active = .bandai ∧ t = bandaiChr 3 v s.clearReport) := by
  simpa using onMapper_inv h

theorem exec_bandaiChr4_inv {s t : State} (a : Addr) (v : Byte) (h : exec (.bandaiChr4 a v) s = .next t) :
    s.active ≠ .none ∧ (t = s.clearReport ∨ s.active = .bandai ∧ t = bandaiChr 4 v s.clearReport) := by
  simpa using onMapper_inv h

theorem exec_bandaiChr5_inv {s t : State} (a : Addr) (v : Byte) (h : exec (.bandaiChr5 a v) s = .next t) :
    s.active ≠ .none ∧ (t = s.clearReport ∨ s.active = .bandai ∧ t = bandaiChr 5 v s.clearReport) := by
  simpa using onMapper_inv h

theorem exec_bandaiChr6_inv {s t : State} (a : Addr) (v : Byte) (h : exec (.bandaiChr6 a v) s = .next t) :
    s.active ≠ .none ∧ (t = s.clearReport ∨ s.active = .bandai ∧ t = bandaiChr 6 v s.clearReport) := by
  simpa using onMapper_inv h

theorem exec_bandaiChr7_inv {s t : State} (a : Addr) (v : Byte) (h : exec (.bandaiChr7 a v) s = .next t) :
    s.active ≠ .none ∧ (t = s.clearReport ∨ s.active = .bandai ∧ t = bandaiChr 7 v s.clearReport) := by
  simpa using onMapper_inv h

theorem exec_bandaiPrg_inv {s t : State} (a : Addr) (v : Byte) (h : exec (.bandaiPrg a v) s = .next t) :
    s.active ≠ .none ∧ (t = s.clearReport ∨ s.active = .bandai ∧ t = bandaiPrg v s.clearReport) := by
  simpa using onMapper_inv h

theorem exec_bandaiMirror_inv {s t : State} (a : Addr) (v : Byte) (h : exec (.bandaiMirror a v) s = .next t) :
    s.active ≠ .none ∧ (t = s.clearReport ∨ s.active = .bandai ∧ t = bandaiMirror v s.clearReport) := by
  simpa using onMapper_inv h

theorem exec_bandaiIrqctl_inv {s t : State} (a : Addr) (v : Byte) (h : exec (.bandaiIrqctl a v) s = .next t) :
    s.active ≠ .none ∧ (t = s.clearReport ∨ s.active = .bandai ∧ t = bandaiIrqctl v s.clearReport) := by
  simpa using onMapper_inv h

theorem exec_bandaiLatchlo_inv {s t : State} (a : Addr) (v : Byte) (h : exec (.bandaiLatchlo a v) s = .next t) :
    s.active ≠ .none ∧ (t = s.clearReport ∨ s.active = .bandai ∧ t = bandaiLatchlo v s.clearReport) := by
  simpa using onMapper_inv h

theorem exec_bandaiLatchhi_inv {s t : State} (a : Addr) (v : Byte) (h : exec (.bandaiLatchhi a v) s = .next t) :
    s.active ≠ .none ∧ (t = s.clearReport ∨ s.active = .bandai ∧ t = bandaiLatchhi v s.clearReport) := by
  simpa using onMapper_inv h

theorem exec_bandaiPort13_inv {s t : State} (a : Addr) (v : Byte) (h : exec (.bandaiPort13 a v) s = .next t) :
    s.active ≠ .none ∧ t = s.clearReport := by
  obtain ⟨hn, rfl | ⟨-, rfl⟩⟩ := onMapper_inv h <;> exact ⟨hn, rfl⟩

theorem exec_bandaiPort14_inv {s t : State} (a : Addr) (v : Byte) (h : exec (.bandaiPort14 a v) s = .next t) :
    s.active ≠ .none ∧ t = s.clearReport := by
  obtain ⟨hn, rfl | ⟨-, rfl⟩⟩ := onMapper_inv h <;> exact ⟨hn, rfl⟩

theorem exec_bandaiPort15_inv {s t : State} (a : Addr) (v : Byte) (h : exec (.bandaiPort15 a v) s = .next t) :
    s.active ≠ .none ∧ t = s.clearReport := by
  obtain ⟨hn, rfl | ⟨-, rfl⟩⟩ := onMapper_inv h <;> exact ⟨hn, rfl⟩

theorem exec_mmcUnclaimed_inv {s t : State} (a : Addr) (v : Byte) (h : exec (.mmcUnclaimed a v) s = .next t) :
    s.active ≠ .none ∧ t = s.clearReport := by
  obtain ⟨hn, rfl | ⟨-, rfl⟩⟩ := onMapper_inv h <;> exact ⟨hn, rfl⟩

theorem exec_mmc2Prg8_inv {s t : State} (a : Addr) (v : Byte) (h : exec (.mmc2Prg8 a v) s = .next t) :
    s.active ≠ .none ∧ (t = s.clearReport ∨ s.active = .mmc2 ∧ t = mmc2Prg8 v s.clearReport) := by
  simpa using onMapper_inv h

theorem exec_mmc4Prg16_inv {s t : State} (a : Addr) (v : Byte) (h : exec (.mmc4Prg16 a v) s = .next t) :
    s.active ≠ .none ∧ (t = s.clearReport ∨ s.active = .mmc4 ∧ t = mmc4Prg16 v s.clearReport) := by
  simpa using onMapper_inv h

theorem exec_mmcChrfd0_inv {s t : State} (a : Addr) (v : Byte) (h : exec (.mmcChrfd0 a v) s = .next t) :
    s.active ≠ .none ∧ (t = s.clearReport ∨ (s.active = .mmc2 ∨ s.active = .mmc4) ∧ t = mmcChrfd0 v s.clearReport) := by
  simpa using onMapper_inv h

theorem exec_mmcChrfe0_inv {s t : State} (a : Addr) (v : Byte) (h : exec (.mmcChrfe0 a v) s = .next t) :
    s.active ≠ .none ∧ (t = s.clearReport ∨ (s.active = .mmc2 ∨ s.active = .mmc4) ∧ t = mmcChrfe0 v s.clearReport) := by
  simpa using onMapper_inv h

theorem exec_mmcChrfd1_inv {s t : State} (a : Addr) (v : Byte) (h : exec (.mmcChrfd1 a v) s = .next t) :
    s.active ≠ .none ∧ (t = s.clearReport ∨ (s.active = .mmc2 ∨ s.active = .mmc4) ∧ t = mmcChrfd1 v s.clearReport) := by
  simpa using onMapper_inv h

theorem exec_mmcChrfe1_inv {s t : State} (a : Addr) (v : Byte) (h : exec (.mmcChrfe1 a v) s = .next t) :
    s.active ≠ .none ∧ (t = s.clearReport ∨ (s.active = .mmc2 ∨ s.active = .mmc4) ∧ t = mmcChrfe1 v s.clearReport) := by
  simpa using onMapper_inv h

theorem exec_mmcMirror_inv {s t : State} (a : Addr) (v : Byte) (h : exec (.mmcMirror a v) s = .next t) :
    s.active ≠ .none ∧ (t = s.clearReport ∨ (s.active = .mmc2 ∨ s.active = .mmc4) ∧ t = mmcMirror v s.clearReport) := by
  simpa using onMapper_inv h

theorem exec_sunsoftChr0_inv {s t : State} (a : Addr) (v : Byte) (h : exec (.sunsoftChr0 a v) s = .next t) :
    s.active ≠ .none ∧ (t = s.clearReport ∨ s.active = .sunsoft ∧ t = sunsoftChr 0 v s.clearReport) := by
  simpa using onMapper_inv h

theorem exec_sunsoftChr1_inv {s t : State} (a : Addr) (v : Byte) (h : exec (.sunsoftChr1 a v) s = .next t) :
    s.active ≠ .none ∧ (t = s.clearReport ∨ s.active = .sunsoft ∧ t = sunsoftChr 1 v s.clearReport) := by
  simpa using onMapper_inv h

theorem exec_sunsoftChr2_inv {s t : State} (a : Addr) (v : Byte) (h : exec (.sunsoftChr2 a v) s = .next t) :
    s.active ≠ .none ∧ (t = s.clearReport ∨ s.active = .sunsoft ∧ t = sunsoftChr 2 v s.clearReport) := by
  simpa using onMapper_inv h

theorem exec_sunsoftChr3_inv {s t : State} (a : Addr) (v : Byte) (h : exec (.sunsoftChr3 a v) s = .next t) :
    s.active ≠ .none ∧ (t = s.clearReport ∨ s.active = .sunsoft ∧ t = sunsoftChr 3 v s.clearReport) := by
  simpa using onMapper_inv h

theorem exec_sunsoftNt0_inv {s t : State} (a : Addr) (v : Byte) (h : exec (.sunsoftNt0 a v) s = .next t) :
    s.active ≠ .none ∧ (t = s.clearReport ∨ s.active = .sunsoft ∧ t = sunsoftNt 0 v s.clearReport) := by
  simpa using onMapper_inv h

theorem exec_sunsoftNt1_inv {s t : State} (a : Addr) (v : Byte) (h : exec (.sunsoftNt1 a v) s = .next t) :
    s.active ≠ .none ∧ (t = s.clearReport ∨ s.active = .sunsoft ∧ t = sunsoftNt 1 v s.clearReport) := by
  simpa using onMapper_inv h

theorem exec_sunsoftNtctl_inv {s t : State} (a : Addr) (v : Byte) (h : exec (.sunsoftNtctl a v) s = .next t) :
    s.active ≠ .none ∧ (t = s.clearReport ∨ s.active = .sunsoft ∧ t = sunsoftNtctl v s.clearReport) := by
  simpa using onMapper_inv h

theorem exec_sunsoftPrg_inv {s t : State} (a : Addr) (v : Byte) (h : exec (.sunsoftPrg a v) s = .next t) :
    s.active ≠ .none ∧ (t = s.clearReport ∨ s.active = .sunsoft ∧ t = sunsoftPrg v s.clearReport) := by
  simpa using onMapper_inv h

theorem exec_sq0R0_inv {s t : State} (v : Byte) (h : exec (.sq0R0 v) s = .next t) :
    s.active ≠ .none ∧ (t = s.clearReport ∨ s.cart.audioOption = .square ∧
      t = { s.clearReport with sq0 := squareWrite 0 v s.sq0 }) := by
  simp only [exec, execSq0R0] at h
  exact onAudio_inv h

theorem exec_sq0R1_inv {s t : State} (v : Byte) (h : exec (.sq0R1 v) s = .next t) :
    s.active ≠ .none ∧ (t = s.clearReport ∨ s.cart.audioOption = .square ∧
      t = { s.clearReport with sq0 := squareWrite 1 v s.sq0 }) := by
  simp only [exec, execSq0R1] at h
  exact onAudio_inv h

theorem exec_sq0R2_inv {s t : State} (v : Byte) (h : exec (.sq0R2 v) s = .next t) :
    s.active ≠ .none ∧ (t = s.clearReport ∨ s.cart.audioOption = .square ∧
      t = { s.clearReport with sq0 := squareWrite 2 v s.sq0 }) := by
  simp only [exec, execSq0R2] at h
  exact onAudio_inv h

theorem exec_sq0R3_inv {s t : State} (v : Byte) (h : exec (.sq0R3 v) s = .next t) :
    s.active ≠ .none ∧ (t = s.clearReport ∨ s.cart.audioOption = .square ∧
      t = { s.clearReport with sq0 := squareWrite 3 v s.sq0 }) := by
  simp only [exec, execSq0R3] at h
  exact onAudio_inv h

theorem exec_sq1R0_inv {s t : State} (v : Byte) (h : exec (.sq1R0 v) s = .next t) :
    s.active ≠ .none ∧ (t = s.clearReport ∨ s.cart.audioOption = .square ∧
      t = { s.clearReport with sq1 := squareWrite 0 v s.sq1 }) := by
  simp only [exec, execSq1R0] at h
  exact onAudio_inv h

theorem exec_sq1R1_inv {s t : State} (v : Byte) (h : exec (.sq1R1 v) s = .next t) :
    s.active ≠ .none ∧ (t = s.clearReport ∨ s.cart.audioOption = .square ∧
      t = { s.clearReport with sq1 := squareWrite 1 v s.sq1 }) := by
  simp only [exec, execSq1R1] at h
  exact onAudio_inv h

theorem exec_sq1R2_inv {s t : State} (v : Byte) (h : exec (.sq1R2 v) s = .next t) :
    s.active ≠ .none ∧ (t = s.clearReport ∨ s.cart.audioOption = .square ∧
      t = { s.clearReport with sq1 := squareWrite 2 v s.sq1 }) := by
  simp only [exec, execSq1R2] at h
  exact onAudio_inv h

theorem exec_sq1R3_inv {s t : State} (v : Byte) (h : exec (.sq1R3 v) s = .next t) :
    s.active ≠ .none ∧ (t = s.clearReport ∨ s.cart.audioOption = .square ∧
      t = { s.clearReport with sq1 := squareWrite 3 v s.sq1 }) := by
  simp only [exec, execSq1R3] at h
  exact onAudio_inv h

theorem exec_sqDa_inv {s t : State} (v : Byte) (h : exec (.sqDa v) s = .next t) :
    s.active ≠ .none ∧ (t = s.clearReport ∨ s.cart.audioOption = .square ∧
      t = { s.clearReport with da := v }) := by
  simp only [exec, execSqDa] at h
  exact onAudio_inv h

theorem exec_sqEnable_inv {s t : State} (v : Byte) (h : exec (.sqEnable v) s = .next t) :
    s.active ≠ .none ∧ (t = s.clearReport ∨ s.cart.audioOption = .square ∧
      t = { s.clearReport with
        sq0 := squareEnable s.args (v.getLsbD 0) s.sq0
        sq1 := squareEnable s.args (v.getLsbD 1) s.sq1 }) := by
  simp only [exec, execSqEnable] at h
  exact onAudio_inv h

theorem exec_sawR0_inv {s t : State} (a : Addr) (v : Byte) (h : exec (.sawR0 a v) s = .next t) :
    s.active ≠ .none ∧ (t = s.clearReport ∨ s.cart.audioOption = .saw ∧
      t = { s.clearReport with saw := sawWrite 0 v s.saw }) := by
  simp only [exec, execSawR0] at h
  exact onAudio_inv h

theorem exec_sawR1_inv {s t : State} (a : Addr) (v : Byte) (h : exec (.sawR1 a v) s = .next t) :
    s.active ≠ .none ∧ (t = s.clearReport ∨ s.cart.audioOption = .saw ∧
      t = { s.clearReport with saw := sawWrite 1 v s.saw }) := by
  simp only [exec, execSawR1] at h
  exact onAudio_inv h

theorem exec_sawR2_inv {s t : State} (a : Addr) (v : Byte) (h : exec (.sawR2 a v) s = .next t) :
    s.active ≠ .none ∧ (t = s.clearReport ∨ s.cart.audioOption = .saw ∧
      t = { s.clearReport with saw := sawWrite 2 v s.saw }) := by
  simp only [exec, execSawR2] at h
  exact onAudio_inv h

theorem exec_sawR3_inv {s t : State} (a : Addr) (v : Byte) (h : exec (.sawR3 a v) s = .next t) :
    s.active ≠ .none ∧ t = s.clearReport := by
  obtain ⟨hn, rfl | ⟨-, rfl⟩⟩ := onAudio_inv h <;> exact ⟨hn, rfl⟩

/-! ## The other kinds -/

theorem exec_ppuLatch_inv {s t : State} (p : PpuAddr) (h : exec (.ppuLatch p) s = .next t) :
    s.active ≠ .none ∧ t = latchCheck p s.clearReport := (ready_next _ _ _).mp h

theorem exec_scanlineStart_inv {s t : State} (line : BitVec 9) (h : exec (.scanlineStart line) s = .next t) :
    s.active ≠ .none ∧
      (s.active ≠ .bandai ∧ t = s.clearReport ∨ s.active = .bandai ∧ t = commit s.clearReport) := by
  obtain ⟨hn, rfl⟩ := (ready_next _ _ _).mp h
  refine ⟨hn, ?_⟩
  split
  · exact .inr ⟨‹_›, rfl⟩
  · exact .inl ⟨‹_›, rfl⟩

theorem exec_predict_inv {s t : State} (line : BitVec 9) (h : exec (.predict line) s = .next t) :
    s.active ≠ .none ∧ t = { s.clearReport with out := { predict := some (predictAnswer s.clearReport) } } := by
  simp only [exec, execPredict] at h
  exact (ready_next _ _ _).mp h

theorem exec_reset_inv {s t : State} (h : exec .reset s = .next t) : s.active ≠ .none ∧ t = resetBlock s.clearReport :=
  (ready_next _ _ _).mp h

theorem exec_renderLine_inv {s t : State} (v : BitVec 15) (fineX : BitVec 3) (bgSel leftClip bgEnabled widthOk : Bool)
    (h : exec (.renderLine v fineX bgSel leftClip bgEnabled widthOk) s = .next t) :
    s.active ≠ .none ∧ t = renderLine v fineX bgSel leftClip bgEnabled widthOk s.clearReport := (ready_next _ _ _).mp h

theorem exec_sample_inv {s t : State} (h : exec .sample s = .next t) : s.active ≠ .none ∧ t = sampleChip s.clearReport :=
  (ready_next _ _ _).mp h

theorem exec_save_inv {s t : State} (h : exec .save s = .next t) : s.active ≠ .none ∧ t = saveBlock s.clearReport :=
  (ready_next _ _ _).mp h

theorem exec_load_inv {s t : State} (h : exec .load s = .next t) :
    s.active ≠ .none ∧ loadBlock s.clearReport = some t := by
  simp only [exec, execLoad] at h
  obtain ⟨hn, h⟩ := (whenReady_next _ _ _).mp h
  refine ⟨hn, ?_⟩
  split at h
  · rename_i u hu
    rw [hu, Host.Outcome.next.inj h]
  · cases h

theorem exec_init_inv {s t : State} (id prg chr : Byte) (mirror audio : BitVec 2)
    (h : exec (.init id prg chr mirror audio) s = .next t) :
    ∃ o m, audioOf audio = some o ∧ variantOf id = some m ∧
      (pageCheck m prg chr = .ok ∧ t = answerInit .ok (claim ⟨id, prg, chr, modeOf mirror, o⟩ m s.clearReport) ∨
        ∃ r, pageCheck m prg chr = r ∧ r ≠ .ok ∧ t = answerInit r { s.clearReport with active := .none }) := by
  simp only [exec, execInit] at h
  split at h
  · cases h
  · rename_i o ho
    split at h
    · cases h
    · rename_i m hm
      refine ⟨o, m, ho, hm, ?_⟩
      split at h
      · rename_i hp
        exact .inl ⟨hp, by simpa using h.symm⟩
      · rename_i hp
        exact .inr ⟨_, rfl, hp, by simpa using h.symm⟩

theorem exec_reserved_not_next {s t : State} (i : Instr) (hi : i.isReserved = true) : exec i s ≠ .next t := by
  intro h
  cases i <;> first
    | (simp [Instr.isReserved] at hi; done)
    | cases h

end Sys2Proof.Machine
end

