-- ==== Sys2Proof/Laws/Memory.lean ====
section
/-! SUPPORT. The laws of the sparse memory: what a read sees after a write, and that every operation keeps the canonical
form. -/

namespace Sys2Proof.Machine

@[simp] theorem Memory.read_nil (a : Nat) : Memory.read [] a = Memory.unlisted := rfl

/-- The canonical form of a memory with a first entry. -/
theorem Memory.wf_cons (a : Nat) (v : Byte) (rest : Memory) :
    Memory.wf ((a, v) :: rest) = true ↔ v ≠ Memory.unlisted ∧ (∀ c ∈ rest, a < c.1) ∧ Memory.wf rest = true := by
  simp [Memory.wf, and_assoc]

/-- An address below every entry reads as unlisted. -/
theorem Memory.read_eq_unlisted (m : Memory) (a : Nat) (h : ∀ c ∈ m, c.1 ≠ a) : Memory.read m a = Memory.unlisted := by
  induction m with
  | nil => rfl
  | cons c rest ih =>
    obtain ⟨b, v⟩ := c
    have hb : a ≠ b := fun e => h (b, v) (by simp) e.symm
    simp [Memory.read, hb, ih fun c hc => h c (by simp [hc])]

@[simp] theorem Memory.read_erase_self (m : Memory) (a : Nat) : Memory.read (m.erase a) a = Memory.unlisted := by
  refine Memory.read_eq_unlisted _ _ fun c hc => ?_
  simpa using (List.mem_filter.mp hc).2

theorem Memory.read_erase_of_ne (m : Memory) (a b : Nat) (h : b ≠ a) : Memory.read (m.erase a) b = Memory.read m b := by
  induction m with
  | nil => rfl
  | cons c rest ih =>
    obtain ⟨x, v⟩ := c
    by_cases hx : x = a
    · subst hx
      simpa [Memory.erase, Memory.read, h] using ih
    · have hc : Memory.erase ((x, v) :: rest) a = (x, v) :: Memory.erase rest a := by simp [Memory.erase, hx]
      rw [hc, Memory.read, Memory.read, ih]

theorem Memory.read_insert_self (m : Memory) (a : Nat) (v : Byte) (h : ∀ c ∈ m, c.1 ≠ a) :
    Memory.read (m.insert a v) a = v := by
  induction m with
  | nil => simp [Memory.insert, Memory.read]
  | cons c rest ih =>
    obtain ⟨x, w⟩ := c
    have hx : a ≠ x := fun e => h (x, w) (by simp) e.symm
    by_cases hlt : a < x
    · simp [Memory.insert, Memory.read, hlt]
    · simp [Memory.insert, Memory.read, hlt, hx, ih fun c hc => h c (by simp [hc])]

theorem Memory.read_insert_of_ne (m : Memory) (a b : Nat) (v : Byte) (h : b ≠ a) :
    Memory.read (m.insert a v) b = Memory.read m b := by
  induction m with
  | nil => simp [Memory.insert, Memory.read, h]
  | cons c rest ih =>
    obtain ⟨x, w⟩ := c
    by_cases hlt : a < x
    · simp [Memory.insert, Memory.read, hlt, h]
    · simp [Memory.insert, Memory.read, hlt, ih]

theorem Memory.not_mem_erase (m : Memory) (a : Nat) : ∀ c ∈ m.erase a, c.1 ≠ a := fun c hc => by
  simpa using (List.mem_filter.mp hc).2

/-- A read after a write to the same address gives the value written. -/
@[simp] theorem Memory.read_write_self (m : Memory) (a : Nat) (v : Byte) : Memory.read (m.write a v) a = v := by
  by_cases hv : v = Memory.unlisted
  · simp [Memory.write, hv]
  · simp [Memory.write, hv, Memory.read_insert_self _ _ _ (Memory.not_mem_erase m a)]

/-- A write leaves every other address alone. -/
theorem Memory.read_write_of_ne (m : Memory) (a b : Nat) (v : Byte) (h : b ≠ a) :
    Memory.read (m.write a v) b = Memory.read m b := by
  by_cases hv : v = Memory.unlisted
  · simp [Memory.write, hv, Memory.read_erase_of_ne _ _ _ h]
  · simp [Memory.write, hv, Memory.read_insert_of_ne _ _ _ _ h, Memory.read_erase_of_ne _ _ _ h]

theorem Memory.wf_erase (m : Memory) (a : Nat) (h : m.wf = true) : (m.erase a).wf = true := by
  induction m with
  | nil => rfl
  | cons c rest ih =>
    obtain ⟨x, v⟩ := c
    obtain ⟨hv, hlt, hr⟩ := (Memory.wf_cons x v rest).mp h
    by_cases hx : x = a
    · simpa [Memory.erase, hx] using ih hr
    · have hc : Memory.erase ((x, v) :: rest) a = (x, v) :: Memory.erase rest a := by simp [Memory.erase, hx]
      rw [hc, Memory.wf_cons]
      exact ⟨hv, fun c hc => hlt c (List.mem_filter.mp hc).1, ih hr⟩

theorem Memory.mem_insert (m : Memory) (a : Nat) (v : Byte) (c : Host.Cell) (h : c ∈ m.insert a v) :
    c = (a, v) ∨ c ∈ m := by
  induction m with
  | nil => simpa [Memory.insert] using h
  | cons d rest ih =>
    obtain ⟨x, w⟩ := d
    by_cases hlt : a < x
    · simpa [Memory.insert, hlt] using h
    · simp only [Memory.insert, hlt, if_false, List.mem_cons] at h ⊢
      rcases h with h | h
      · exact .inr (.inl h)
      · exact (ih h).imp id .inr

theorem Memory.wf_insert (m : Memory) (a : Nat) (v : Byte) (hv : v ≠ Memory.unlisted) (h : m.wf = true)
    (hne : ∀ c ∈ m, c.1 ≠ a) : (m.insert a v).wf = true := by
  induction m with
  | nil => simp [Memory.insert, Memory.wf, hv]
  | cons c rest ih =>
    obtain ⟨x, w⟩ := c
    obtain ⟨hw, hlt, hr⟩ := (Memory.wf_cons x w rest).mp h
    have hx : x ≠ a := hne (x, w) (by simp)
    by_cases hax : a < x
    · simp only [Memory.insert, hax, if_true]
      rw [Memory.wf_cons]
      refine ⟨hv, fun c hc => ?_, h⟩
      rcases List.mem_cons.mp hc with rfl | hc
      · exact hax
      · exact lt_trans hax (hlt c hc)
    · simp only [Memory.insert, hax, if_false]
      rw [Memory.wf_cons]
      refine ⟨hw, fun c hc => ?_, ih hr fun c hc => hne c (by simp [hc])⟩
      rcases Memory.mem_insert _ _ _ _ hc with rfl | hc
      · show x < a
        omega
      · exact hlt c hc

/-- A write keeps the canonical form. -/
theorem Memory.wf_write (m : Memory) (a : Nat) (v : Byte) (h : m.wf = true) : (m.write a v).wf = true := by
  by_cases hv : v = Memory.unlisted
  · simpa [Memory.write, hv] using Memory.wf_erase m a h
  · simpa [Memory.write, hv] using
      Memory.wf_insert _ a v hv (Memory.wf_erase m a h) (Memory.not_mem_erase m a)

/-- The reset memories are in the canonical form. -/
theorem State.reset_memory_wf :
    State.reset.prgRom.wf = true ∧ State.reset.chrRom.wf = true ∧ State.reset.ciram.wf = true := ⟨rfl, rfl, rfl⟩

end Sys2Proof.Machine
end

