-- ==== Sys2Proof/Tests/Slice0.lean ====
section
/-! SUPPORT. The model's own tests: ill-formed terms refused, words written out from the encoding tables, single steps checked
against 95_test_vectors.md, and for every obligation with hypotheses a state and operands that meet them. -/

namespace Sys2Proof.Tests

open Sys2Proof Sys2Proof.Machine

set_option Elab.async false

/-! ## Small states -/

/-- Parameter set AP of 95_test_vectors.md: CPS_SHIFT = 18, CPS = 7457 * 2^18, the rest at the defaults. -/
def ap : ModelArgs :=
  defaultArgs 0x74840000 18 ⟨.replicate 8 0, .replicate 8 0, .replicate 8 0, .replicate 8 0, .replicate 8 0, .replicate 8 0⟩

/-- The next state of an outcome. -/
def nextOf (r : Result) : Option State :=
  match r with
  | .next s => some s
  | .fault _ => none
  | .refused _ => none

/-- The refusal of an outcome. -/
def refusalIn (r : Result) : Option Refusal :=
  match r with
  | .next _ => none
  | .fault _ => none
  | .refused e => some e

/-- A cartridge claimed: its id, page counts, mirroring and audio module, with parameter set AP. -/
def start (id prg chr : Byte) (m : MirrorMode) (o : AudioOption) (a : Active) : State :=
  claim ⟨id, prg, chr, m, o⟩ a { State.reset with args := ap }

/-- INIT id=16, prg=8, chr=16, mirror=H. -/
def bandai0 : State := start 16 8 16 .horizontal .none .bandai
/-- INIT id=9, prg=8, chr=16, mirror=V. -/
def mmc20 : State := start 9 8 16 .vertical .none .mmc2
/-- INIT id=10, prg=8, chr=16, mirror=V. -/
def mmc40 : State := start 10 8 16 .vertical .none .mmc4
/-- INIT id=68, prg=2, chr=16, mirror=V. -/
def sunsoft0 : State := start 68 2 16 .vertical .none .sunsoft
/-- INIT id=16, prg=2, chr=1, mirror=V, audio=SQ. -/
def square0 : State := start 16 2 1 .vertical .square .bandai
/-- INIT id=16, prg=2, chr=1, mirror=V, audio=SAW. -/
def saw0 : State := start 16 2 1 .vertical .saw .bandai

/-- The interrupt counter armed at `c`. -/
def armed (c : BitVec 16) : State := { bandai0 with bandai := { bandai0.bandai with irqEnable := true, irqCounter := c } }

/-- A memory with the listed bytes. -/
def memoryOf (l : List Host.Cell) : Memory := l.foldl (fun m c => m.write c.1 c.2) []

/-- One word as the next input. -/
def queued (w : TxWord) (s : State) : State := { s with inputs := [.transaction w] }

/-! ## Well-formedness refuses operands the encoding does not admit -/

/-- 40_bandai.md R130: a port's address lies in $6000 to $FFFF and ends in the port's number. -/
theorem test_wf_bandai :
    (Instr.bandaiChr0 0x5FF0 1).wf = false ∧ (Instr.bandaiChr1 0x8002 1).wf = false ∧ (Instr.bandaiChr2 0x8003 1).wf = false ∧
    (Instr.bandaiChr3 0x8004 1).wf = false ∧ (Instr.bandaiChr4 0x8005 1).wf = false ∧ (Instr.bandaiChr5 0x8006 1).wf = false ∧
    (Instr.bandaiChr6 0x8007 1).wf = false ∧ (Instr.bandaiChr7 0x8008 1).wf = false ∧ (Instr.bandaiPrg 0x5008 1).wf = false ∧
    (Instr.bandaiMirror 0x800A 1).wf = false ∧ (Instr.bandaiIrqctl 0x800B 1).wf = false ∧
    (Instr.bandaiLatchlo 0x800C 1).wf = false ∧ (Instr.bandaiLatchhi 0x800D 1).wf = false ∧
    (Instr.bandaiPort13 0x800E 1).wf = false ∧ (Instr.bandaiPort14 0x800F 1).wf = false ∧
    (Instr.bandaiPort15 0x8000 1).wf = false ∧ (Instr.bandaiChr0 0x6000 1).wf = true := by decide

/-- 41_mmc2_mmc4.md R170 and 42_sunsoft.md R210: a window's address has A[15:12] equal to the window. -/
theorem test_wf_windows :
    (Instr.mmcUnclaimed 0xA000 1).wf = false ∧ (Instr.mmcUnclaimed 0x7FFF 1).wf = false ∧ (Instr.mmc2Prg8 0x9FFF 1).wf = false ∧
    (Instr.mmc4Prg16 0xB000 1).wf = false ∧ (Instr.mmcChrfd0 0xC000 1).wf = false ∧ (Instr.mmcChrfe0 0xB000 1).wf = false ∧
    (Instr.mmcChrfd1 0xE000 1).wf = false ∧ (Instr.mmcChrfe1 0xD000 1).wf = false ∧ (Instr.mmcMirror 0xE000 1).wf = false ∧
    (Instr.sunsoftChr0 0x9000 1).wf = false ∧ (Instr.sunsoftChr1 0x8000 1).wf = false ∧ (Instr.sunsoftChr2 0xB000 1).wf = false ∧
    (Instr.sunsoftChr3 0xA000 1).wf = false ∧ (Instr.sunsoftNt0 0xD000 1).wf = false ∧ (Instr.sunsoftNt1 0xC000 1).wf = false ∧
    (Instr.sunsoftNtctl 0xF000 1).wf = false ∧ (Instr.sunsoftPrg 0xE000 1).wf = false ∧ (Instr.sunsoftPrg 0xFFFF 1).wf = true := by
  decide

/-- 45_audio.md R306 and 30_encoding.md R107. -/
theorem test_wf_saw_init :
    (Instr.sawR0 0xB001 1).wf = false ∧ (Instr.sawR1 0xB000 1).wf = false ∧ (Instr.sawR2 0xA002 1).wf = false ∧
    (Instr.sawR3 0xC003 1).wf = false ∧ (Instr.init 16 2 1 0 3).wf = false ∧ (Instr.init 16 2 1 3 2).wf = true := by decide

/-! ## Decoding: one word of every constructor, written out from 30_encoding.md -/

/-- BANDAI ports (R102, R110). -/
theorem test_decode_bandai :
    decode ⟨.bandai, .none⟩ 0b0000_0000_0110000000000000_01011010#32 =
      .ok (.write (some (.bandaiChr0 0x6000 0x5A)) none) ∧
    decode ⟨.bandai, .none⟩ 0b0000_0000_0111111111110001_01011011#32 =
      .ok (.write (some (.bandaiChr1 0x7FF1 0x5B)) none) ∧
    decode ⟨.bandai, .none⟩ 0b0000_0000_1000000000000010_01011100#32 =
      .ok (.write (some (.bandaiChr2 0x8002 0x5C)) none) ∧
    decode ⟨.bandai, .none⟩ 0b0000_0000_1111111111110011_01011101#32 =
      .ok (.write (some (.bandaiChr3 0xFFF3 0x5D)) none) ∧
    decode ⟨.bandai, .none⟩ 0b0000_0000_0110000000000100_01011110#32 =
      .ok (.write (some (.bandaiChr4 0x6004 0x5E)) none) ∧
    decode ⟨.bandai, .none⟩ 0b0000_0000_0111111111110101_01011111#32 =
      .ok (.write (some (.bandaiChr5 0x7FF5 0x5F)) none) ∧
    decode ⟨.bandai, .none⟩ 0b0000_0000_1000000000000110_01100000#32 =
      .ok (.write (some (.bandaiChr6 0x8006 0x60)) none) ∧
    decode ⟨.bandai, .none⟩ 0b0000_0000_1111111111110111_01100001#32 =
      .ok (.write (some (.bandaiChr7 0xFFF7 0x61)) none) ∧
    decode ⟨.bandai, .none⟩ 0b0000_0000_0110000000001000_01100010#32 =
      .ok (.write (some (.bandaiPrg 0x6008 0x62)) none) ∧
    decode ⟨.bandai, .none⟩ 0b0000_0000_0111111111111001_01100011#32 =
      .ok (.write (some (.bandaiMirror 0x7FF9 0x63)) none) ∧
    decode ⟨.bandai, .none⟩ 0b0000_0000_1000000000001010_01100100#32 =
      .ok (.write (some (.bandaiIrqctl 0x800A 0x64)) none) ∧
    decode ⟨.bandai, .none⟩ 0b0000_0000_1111111111111011_01100101#32 =
      .ok (.write (some (.bandaiLatchlo 0xFFFB 0x65)) none) ∧
    decode ⟨.bandai, .none⟩ 0b0000_0000_0110000000001100_01100110#32 =
      .ok (.write (some (.bandaiLatchhi 0x600C 0x66)) none) ∧
    decode ⟨.bandai, .none⟩ 0b0000_0000_0111111111111101_01100111#32 =
      .ok (.write (some (.bandaiPort13 0x7FFD 0x67)) none) ∧
    decode ⟨.bandai, .none⟩ 0b0000_0000_1000000000001110_01101000#32 =
      .ok (.write (some (.bandaiPort14 0x800E 0x68)) none) ∧
    decode ⟨.bandai, .none⟩ 0b0000_0000_1111111111111111_01101001#32 =
      .ok (.write (some (.bandaiPort15 0xFFFF 0x69)) none) := by
  refine ⟨rfl, rfl, rfl, rfl, rfl, rfl, rfl, rfl, rfl, rfl, rfl, rfl, rfl, rfl, rfl, rfl⟩

/-- MMC2 and MMC4 windows (R102, R110). -/
theorem test_decode_mmc :
    decode ⟨.mmc2, .none⟩ 0b0000_0000_1000000000000000_11000011#32 =
      .ok (.write (some (.mmcUnclaimed 0x8000 0xC3)) none) ∧
    decode ⟨.mmc4, .none⟩ 0b0000_0000_1001111111111111_11000011#32 =
      .ok (.write (some (.mmcUnclaimed 0x9FFF 0xC3)) none) ∧
    decode ⟨.mmc2, .none⟩ 0b0000_0000_1010000000000000_11000011#32 =
      .ok (.write (some (.mmc2Prg8 0xA000 0xC3)) none) ∧
    decode ⟨.mmc4, .none⟩ 0b0000_0000_1010111111111111_11000011#32 =
      .ok (.write (some (.mmc4Prg16 0xAFFF 0xC3)) none) ∧
    decode ⟨.mmc2, .none⟩ 0b0000_0000_1011000100100011_11000011#32 =
      .ok (.write (some (.mmcChrfd0 0xB123 0xC3)) none) ∧
    decode ⟨.mmc4, .none⟩ 0b0000_0000_1100000000000000_11000011#32 =
      .ok (.write (some (.mmcChrfe0 0xC000 0xC3)) none) ∧
    decode ⟨.mmc2, .none⟩ 0b0000_0000_1101111111111111_11000011#32 =
      .ok (.write (some (.mmcChrfd1 0xDFFF 0xC3)) none) ∧
    decode ⟨.mmc4, .none⟩ 0b0000_0000_1110000000000001_11000011#32 =
      .ok (.write (some (.mmcChrfe1 0xE001 0xC3)) none) ∧
    decode ⟨.mmc2, .none⟩ 0b0000_0000_1111000000000000_11000011#32 =
      .ok (.write (some (.mmcMirror 0xF000 0xC3)) none) := by
  refine ⟨rfl, rfl, rfl, rfl, rfl, rfl, rfl, rfl, rfl⟩

/-- SUNSOFT windows (R102, R110). -/
theorem test_decode_sunsoft :
    decode ⟨.sunsoft, .none⟩ 0b0000_0000_1000000000000000_00111100#32 =
      .ok (.write (some (.sunsoftChr0 0x8000 0x3C)) none) ∧
    decode ⟨.sunsoft, .none⟩ 0b0000_0000_1001111111111111_00111100#32 =
      .ok (.write (some (.sunsoftChr1 0x9FFF 0x3C)) none) ∧
    decode ⟨.sunsoft, .none⟩ 0b0000_0000_1010000000000001_00111100#32 =
      .ok (.write (some (.sunsoftChr2 0xA001 0x3C)) none) ∧
    decode ⟨.sunsoft, .none⟩ 0b0000_0000_1011000000000000_00111100#32 =
      .ok (.write (some (.sunsoftChr3 0xB000 0x3C)) none) ∧
    decode ⟨.sunsoft, .none⟩ 0b0000_0000_1100000000000000_00111100#32 =
      .ok (.write (some (.sunsoftNt0 0xC000 0x3C)) none) ∧
    decode ⟨.sunsoft, .none⟩ 0b0000_0000_1101111111111111_00111100#32 =
      .ok (.write (some (.sunsoftNt1 0xDFFF 0x3C)) none) ∧
    decode ⟨.sunsoft, .none⟩ 0b0000_0000_1110000000000000_00111100#32 =
      .ok (.write (some (.sunsoftNtctl 0xE000 0x3C)) none) ∧
    decode ⟨.sunsoft, .none⟩ 0b0000_0000_1111111111111111_00111100#32 =
      .ok (.write (some (.sunsoftPrg 0xFFFF 0x3C)) none) := by
  refine ⟨rfl, rfl, rfl, rfl, rfl, rfl, rfl, rfl⟩

/-- SQUARE_CHIP registers (R102, R110). -/
theorem test_decode_square :
    decode ⟨.sunsoft, .square⟩ 0b0000_0000_0101000000000000_10010110#32 =
      .ok (.write none (some (.sq0R0 0x96))) ∧
    decode ⟨.sunsoft, .square⟩ 0b0000_0000_0101000000000001_10010110#32 =
      .ok (.write none (some (.sq0R1 0x96))) ∧
    decode ⟨.sunsoft, .square⟩ 0b0000_0000_0101000000000010_10010110#32 =
      .ok (.write none (some (.sq0R2 0x96))) ∧
    decode ⟨.sunsoft, .square⟩ 0b0000_0000_0101000000000011_10010110#32 =
      .ok (.write none (some (.sq0R3 0x96))) ∧
    decode ⟨.sunsoft, .square⟩ 0b0000_0000_0101000000000100_10010110#32 =
      .ok (.write none (some (.sq1R0 0x96))) ∧
    decode ⟨.sunsoft, .square⟩ 0b0000_0000_0101000000000101_10010110#32 =
      .ok (.write none (some (.sq1R1 0x96))) ∧
    decode ⟨.sunsoft, .square⟩ 0b0000_0000_0101000000000110_10010110#32 =
      .ok (.write none (some (.sq1R2 0x96))) ∧
    decode ⟨.sunsoft, .square⟩ 0b0000_0000_0101000000000111_10010110#32 =
      .ok (.write none (some (.sq1R3 0x96))) ∧
    decode ⟨.sunsoft, .square⟩ 0b0000_0000_0101000000010001_10010110#32 =
      .ok (.write none (some (.sqDa 0x96))) ∧
    decode ⟨.sunsoft, .square⟩ 0b0000_0000_0101000000010101_10010110#32 =
      .ok (.write none (some (.sqEnable 0x96))) := by
  refine ⟨rfl, rfl, rfl, rfl, rfl, rfl, rfl, rfl, rfl, rfl⟩

/-- SAW_CHIP registers, on a BANDAI cartridge that decodes the same word too (R109). -/
theorem test_decode_saw :
    decode ⟨.bandai, .saw⟩ 0b0000_0000_1011000000000000_01101001#32 =
      .ok (.write (some (.bandaiChr0 0xB000 0x69)) (some (.sawR0 0xB000 0x69))) ∧
    decode ⟨.bandai, .saw⟩ 0b0000_0000_1011000000000001_01101001#32 =
      .ok (.write (some (.bandaiChr1 0xB001 0x69)) (some (.sawR1 0xB001 0x69))) ∧
    decode ⟨.bandai, .saw⟩ 0b0000_0000_1011111111111110_01101001#32 =
      .ok (.write (some (.bandaiPort14 0xBFFE 0x69)) (some (.sawR2 0xBFFE 0x69))) ∧
    decode ⟨.bandai, .saw⟩ 0b0000_0000_1011000000010011_01101001#32 =
      .ok (.write (some (.bandaiChr3 0xB013 0x69)) (some (.sawR3 0xB013 0x69))) := by
  refine ⟨rfl, rfl, rfl, rfl⟩

/-- The other kinds (R101, R103 to R108). -/
theorem test_decode_kinds :
    decode ⟨.bandai, .none⟩ 0b0001_00000000000000_10101010111100#32 =
      .ok (.one (.ppuLatch 0x2ABC)) ∧
    decode ⟨.bandai, .none⟩ 0b0010_0000000000000000000_100000101#32 =
      .ok (.one (.scanlineStart 0x105)) ∧
    decode ⟨.bandai, .none⟩ 0b0011_0000000000000000000_011110000#32 =
      .ok (.one (.predict 0x0F0)) ∧
    decode ⟨.bandai, .none⟩ 0b0100_0000000000000000000000000000#32 =
      .ok (.one .reset) ∧
    decode ⟨.bandai, .none⟩ 0b0101_000000_1_0_1_0_101_101101000111100#32 =
      .ok (.one (.renderLine 0x5A3C 5 false true false true)) ∧
    decode ⟨.bandai, .none⟩ 0b0101_000000_0_1_0_1_010_010010111000011#32 =
      .ok (.one (.renderLine 0x25C3 2 true false true false)) ∧
    decode ⟨.bandai, .none⟩ 0b0110_0000000000000000000000000000#32 =
      .ok (.one .sample) ∧
    decode ⟨.bandai, .none⟩ 0b0111_0000000000000000000000000000#32 =
      .ok (.one .save) ∧
    decode ⟨.bandai, .none⟩ 0b1000_0000000000000000000000000000#32 =
      .ok (.one .load) ∧
    decode ⟨.bandai, .none⟩ 0b1001_01000100_01_10_00100000_00000100#32 =
      .ok (.one (.init 68 0x04 0x20 2 1)) ∧
    decode ⟨.bandai, .none⟩ 0b1010_0001001000110100010101100111#32 =
      .ok (.one (.reservedA 0x1234567)) ∧
    decode ⟨.bandai, .none⟩ 0b1011_0001001000110100010101100111#32 =
      .ok (.one (.reservedB 0x1234567)) ∧
    decode ⟨.bandai, .none⟩ 0b1100_0001001000110100010101100111#32 =
      .ok (.one (.reservedC 0x1234567)) ∧
    decode ⟨.bandai, .none⟩ 0b1101_0001001000110100010101100111#32 =
      .ok (.one (.reservedD 0x1234567)) ∧
    decode ⟨.bandai, .none⟩ 0b1110_0001001000110100010101100111#32 =
      .ok (.one (.reservedE 0x1234567)) ∧
    decode ⟨.bandai, .none⟩ 0b1111_0001001000110100010101100111#32 =
      .ok (.one (.reservedF 0x1234567)) := by
  refine ⟨rfl, rfl, rfl, rfl, rfl, rfl, rfl, rfl, rfl, rfl, rfl, rfl, rfl, rfl, rfl, rfl⟩

/-- Words that R108 refuses, from section 30 of 95_test_vectors.md. -/
theorem test_decode_refuses :
    decode ⟨.bandai, .none⟩ 0x01800803#32 = .error .mustBeZero ∧ decode ⟨.bandai, .none⟩ 0x10004000#32 = .error .mustBeZero ∧
    decode ⟨.bandai, .none⟩ 0x20000200#32 = .error .mustBeZero ∧ decode ⟨.bandai, .none⟩ 0x30000200#32 = .error .mustBeZero ∧
    decode ⟨.bandai, .none⟩ 0x40000001#32 = .error .mustBeZero ∧ decode ⟨.bandai, .none⟩ 0x50400000#32 = .error .mustBeZero ∧
    decode ⟨.bandai, .none⟩ 0x60000001#32 = .error .mustBeZero ∧ decode ⟨.bandai, .none⟩ 0x78000000#32 = .error .mustBeZero ∧
    decode ⟨.bandai, .none⟩ 0x80000001#32 = .error .mustBeZero ∧ decode ⟨.bandai, .none⟩ 0x910C0102#32 = .error .audioReserved := by
  refine ⟨rfl, rfl, rfl, rfl, rfl, rfl, rfl, rfl, rfl, rfl⟩

/-- The encoder on the words of programs P1, P2, P4 and P5 of 95_test_vectors.md. -/
theorem test_encode :
    encode (.sunsoftPrg 0xF000 1) = 0x00F00001#32 ∧ encode (.bandaiMirror 0x6009 2) = 0x00600902#32 ∧
    encode (.sqEnable 1) = 0x00501501#32 ∧ encode (.ppuLatch 0x1FD0) = 0x10001FD0#32 ∧
    encode (.renderLine 0x001E 3 true false true true) = 0x5035801E#32 ∧ encode (.init 10 2 16 0 0) = 0x90A01002#32 := by decide

/-! ## Single steps, from 95_test_vectors.md -/

/-- L2 section 46, and SCANLINE_START before any INIT in section 30. -/
theorem test_init_answers :
    (nextOf (step (queued 0x91000102#32 State.reset))).map (fun t => (t.out.initResult, t.active)) = some (some .ok, .bandai) ∧
    (nextOf (step (queued 0x90901001#32 State.reset))).map (fun t => (t.out.initResult, t.active)) = some (some .insufficient, .none) ∧
    (nextOf (step (queued 0x91000103#32 State.reset))).map (fun t => (t.out.initResult, t.active)) = some (some .unsupported, .none) ∧
    (nextOf (step (queued 0x91000002#32 State.reset))).map (fun t => (t.out.initResult, t.active)) = some (some .insufficient, .none) ∧
    (nextOf (step (queued 0x94400006#32 State.reset))).map (fun t => (t.out.initResult, t.active)) = some (some .unsupported, .none) ∧
    refusalIn (step (queued 0x90400102#32 State.reset)) = some (.unsupportedMapper 4) ∧
    refusalIn (step (queued 0x20000000#32 State.reset)) = some .notInitialised := by decide +kernel

/-- E2: the views that INIT leaves. -/
theorem test_init_views :
    (nextOf (step (queued 0x91011008#32 State.reset))).map (fun t => t.view.prgSlot) = some #v[0, 1, 14, 15] ∧
    (nextOf (step (queued 0x90911008#32 State.reset))).map (fun t => t.view.prgSlot) = some #v[0, 13, 14, 15] ∧
    (nextOf (step (queued 0x94411008#32 State.reset))).map (fun t => t.view.ntSrc) =
      some #v[.ciram 0, .ciram 0, .ciram 1, .ciram 1] := by decide +kernel

/-- Section 40: `WR $8003, #$85`. -/
theorem test_bandai_chr :
    (nextOf (step (queued 0x00800385#32 bandai0))).map (fun t => (t.bandai.chr, t.view.chrSlot)) =
      some (#v[0, 1, 2, 0x85, 4, 5, 6, 7], #v[0, 1, 2, 5, 4, 5, 6, 7]) := by decide +kernel

/-- Section 40: port 8 through the $7000 alias, `WR $7FF8, #$13`. -/
theorem test_bandai_prg :
    (nextOf (step (queued 0x007FF813#32 bandai0))).map (fun t => (t.bandai.prg, t.view.prgSlot)) =
      some (0x13, #v[6, 7, 14, 15]) := by decide +kernel

/-- Section 40: `WR $6009, #$02`. -/
theorem test_bandai_mirror :
    (nextOf (step (queued 0x00600902#32 bandai0))).map (fun t => (t.bandai.mirror, t.view.ntSrc)) =
      some (.singleLow, #v[.ciram 0, .ciram 0, .ciram 0, .ciram 0]) := by decide +kernel

/-- Section 40: the latch's bytes, and port 10 loading the counter from the latch. -/
theorem test_bandai_latch :
    (nextOf (exec (.bandaiLatchlo 0x800B 0x34) bandai0)).map (fun t => (t.bandai.irqLatch, t.bandai.irqCounter)) = some (0x0034, 0) ∧
    (nextOf (exec (.bandaiLatchhi 0x800C 0x12) { bandai0 with bandai := { bandai0.bandai with irqLatch := 0x0034 } })).map
      (fun t => (t.bandai.irqLatch, t.bandai.irqCounter)) = some (0x1234, 0) ∧
    (nextOf (exec (.bandaiIrqctl 0x800A 0) { bandai0 with bandai := { bandai0.bandai with irqLatch := 0x1234, irqEnable := true } })).map
      (fun t => (t.bandai.irqCounter, t.bandai.irqEnable, t.out.irqEdge)) = some (0x1234, false, false) := by decide +kernel

/-- E3: C = 16, 1, 0 with D = 1, then C = 4 and C = 2 with D = 3 and D = 5. -/
theorem test_commit :
    (nextOf (exec (.scanlineStart 0) (armed 16))).map (fun t => (t.bandai.irqCounter, t.bandai.irqEnable, t.out.irqEdge)) =
      some (15, true, false) ∧
    (nextOf (exec (.scanlineStart 0) (armed 1))).map (fun t => (t.bandai.irqCounter, t.bandai.irqEnable, t.out.irqEdge)) =
      some (0, false, true) ∧
    (nextOf (exec (.scanlineStart 0) (armed 0))).map (fun t => (t.bandai.irqCounter, t.bandai.irqEnable, t.out.irqEdge)) =
      some (0, false, true) ∧
    (nextOf (exec (.scanlineStart 0) { armed 4 with args := { ap with pseudoClocks := 3 } })).map
      (fun t => (t.bandai.irqCounter, t.bandai.irqEnable, t.out.irqEdge)) = some (1, true, false) ∧
    (nextOf (exec (.scanlineStart 0) { armed 2 with args := { ap with pseudoClocks := 5 } })).map
      (fun t => (t.bandai.irqCounter, t.bandai.irqEnable, t.out.irqEdge)) = some (0, false, true) := by decide +kernel

/-- E4, E5. -/
theorem test_predict :
    (nextOf (exec (.predict 0) (armed 3))).map (fun t => (t.out.predict, t.bandai.irqCounter)) = some (some .noTrigger, 3) ∧
    (nextOf (exec (.predict 0) (armed 1))).map (fun t => (t.out.predict, t.bandai.irqCounter, t.bandai.irqEnable)) =
      some (some .trigger, 1, true) ∧
    (nextOf (exec (.predict 0) bandai0)).map (fun t => t.out.predict) = some (some .noTrigger) ∧
    (nextOf (exec (.predict 0) mmc20)).map (fun t => t.out.predict) = some (some .noTrigger) := by decide +kernel

/-- Section 41: PRG on MMC2 and MMC4, and the unclaimed window. -/
theorem test_mmc_prg :
    (nextOf (step (queued 0x00A0001F#32 mmc20))).map (fun t => t.view.prgSlot) = some #v[15, 13, 14, 15] ∧
    (nextOf (step (queued 0x00A0000B#32 mmc40))).map (fun t => t.view.prgSlot) = some #v[6, 7, 14, 15] ∧
    (nextOf (step (queued 0x00800055#32 mmc20))).map (fun t => t.view) = some mmc20.view := by decide +kernel

/-- Section 41: `WR $B000, #$02` is deferred, `WR $C000, #$03` and `WR $E000, #$06` are not. -/
theorem test_mmc_chr :
    (nextOf (step (queued 0x00B00002#32 mmc20))).map (fun t => (t.mmc.chrFd0, t.view.chrSlot)) =
      some (2, #v[0, 1, 2, 3, 4, 5, 6, 7]) ∧
    (nextOf (step (queued 0x00C00003#32 mmc20))).map (fun t => t.view.chrSlot) = some #v[12, 13, 14, 15, 4, 5, 6, 7] ∧
    (nextOf (step (queued 0x00D00004#32 mmc20))).map (fun t => (t.mmc.chrFd1, t.view.chrSlot)) =
      some (4, #v[0, 1, 2, 3, 4, 5, 6, 7]) ∧
    (nextOf (step (queued 0x00E00006#32 mmc20))).map (fun t => t.view.chrSlot) = some #v[0, 1, 2, 3, 24, 25, 26, 27] ∧
    (nextOf (step (queued 0x00F00001#32 mmc20))).map (fun t => t.view.ntSrc) =
      some #v[.ciram 0, .ciram 0, .ciram 1, .ciram 1] := by decide +kernel

/-- Section 41: a latch moved in half 1, and one not moved above $1FFF. -/
theorem test_ppu_latch :
    (nextOf (step (queued 0x10001FD0#32 { mmc20 with mmc := { mmc20.mmc with chrFd1 := 4 } }))).map
      (fun t => (t.mmc.latch0, t.mmc.latch1, t.view.chrSlot)) = some (0xFE, 0xFD, #v[0, 1, 2, 3, 16, 17, 18, 19]) ∧
    (nextOf (step (queued 0x10002FD0#32 mmc20))).map (fun t => (t.mmc.latch0, t.mmc.latch1)) = some (0xFE, 0xFE) ∧
    (nextOf (step (queued 0x10000FD8#32 mmc20))).map (fun t => (t.mmc.latch0, t.mmc.latch1)) = some (0xFD, 0xFE) := by decide +kernel

/-- Section 42: PRG and CHR windows. -/
theorem test_sunsoft_banks :
    (nextOf (step (queued 0x00F00005#32 sunsoft0))).map (fun t => (t.sunsoft.prg, t.view.prgSlot)) = some (5, #v[2, 3, 2, 3]) ∧
    (nextOf (step (queued 0x00900041#32 sunsoft0))).map (fun t => (t.sunsoft.chr, t.view.chrSlot)) =
      some (#v[0, 0x41, 2, 3], #v[0, 1, 2, 3, 4, 5, 6, 7]) ∧
    (nextOf (step (queued 0x008FFFFF#32 sunsoft0))).map (fun t => t.view.chrSlot) = some #v[126, 127, 2, 3, 4, 5, 6, 7] := by
  decide +kernel

/-- Section 42: a name-table bank is stored only, and `WR $E000, #$11` shows both. -/
theorem test_sunsoft_name_tables :
    (nextOf (step (queued 0x00C00005#32 sunsoft0))).map (fun t => (t.sunsoft.nt, t.view.ntSrc)) =
      some (#v[5, 0], #v[.ciram 0, .ciram 1, .ciram 0, .ciram 1]) ∧
    (nextOf (step (queued 0x00E00011#32 { sunsoft0 with sunsoft := { sunsoft0.sunsoft with nt := #v[5, 6] } }))).map
      (fun t => t.view.ntSrc) = some #v[.chr 5, .chr 5, .chr 6, .chr 6] ∧
    (nextOf (step (queued 0x00E00003#32 sunsoft0))).map (fun t => t.view.ntSrc) =
      some #v[.ciram 1, .ciram 1, .ciram 1, .ciram 1] := by decide +kernel

/-- A square channel with registers $9F, $00, $FD, $08 and the dirty mask $D, as in A2. -/
def pendingSquare : State :=
  { square0 with sq0 := { square0.sq0 with regs := #v[0x9F, 0, 0xFD, 0x08], update := 0xD, enabled := true } }

/-- A1, A10, and the enable bits of SQ.ENABLE. -/
theorem test_square_writes :
    (nextOf (step (queued 0x005000BF#32 square0))).map (fun t => (t.sq0.regs, t.sq0.update, t.sq0.d.vol)) =
      some (#v[0xBF, 0, 0, 0], 1, 0) ∧
    (nextOf (step (queued 0x00500709#32 square0))).map (fun t => (t.sq1.regs, t.sq1.update)) = some (#v[0, 0, 0, 9], 8) ∧
    (nextOf (step (queued 0x00501140#32 square0))).map (fun t => t.da) = some 0x40 ∧
    (nextOf (step (queued 0x00501502#32 square0))).map (fun t => (t.sq0.enabled, t.sq1.enabled)) = some (false, true) := by
  decide +kernel

/-- The channel after A2's second SAMPLE: key 1, len 253, env 15, pos 5, the phases worked out from CPS and the wave step. -/
def sampledTwice : State :=
  { square0 with sq0 := { square0.sq0 with
      regs := #v[0x9F, 0, 0xFD, 0x08], enabled := true, key := true, length := 253, envVol := 15, dutyPos := 5,
      envPhase := 2 * 7457 * 2 ^ 18, wavePhase := 182 * 2 ^ 18, d := squareDecode ap #v[0x9F, 0, 0xFD, 0x08] } }

/-- A2's first SAMPLE: answer 0, key 1, len 254, env 15, pos 6. Its third: answer 15, pos 4, len 253. -/
theorem test_sample_square :
    (nextOf (step (queued 0x60000000#32 pendingSquare))).map
      (fun t => (t.out.sample, t.sq0.key, t.sq0.length, t.sq0.envVol, t.sq0.dutyPos, t.sq0.update)) =
      some (some 0, true, 254, 15, 6, 0) ∧
    (nextOf (step (queued 0x60000000#32 sampledTwice))).map (fun t => (t.out.sample, t.sq0.dutyPos, t.sq0.length)) =
      some (some 15, 4, 253) := by decide +kernel

/-- S5: CPS = 13 * 2^18, rate 63, period 0: 13 ticks, answer 15, step_pos 13, acc 122. -/
theorem test_sample_saw :
    (nextOf (step (queued 0x60000000#32
      { saw0 with args := { ap with cps := 13 * 2 ^ 18 }, saw := { saw0.saw with regs := #v[0x3F, 0, 0x80], update := 7 } }))).map
      (fun t => (t.out.sample, t.saw.key, t.saw.stepPos, t.saw.acc)) = some (some 15, true, 13, 122) := by decide +kernel

/-- S1's writes and S2: register 3 is ignored. -/
theorem test_saw_writes :
    (nextOf (step (queued 0x00B00008#32 saw0))).map (fun t => (t.saw.regs, t.saw.update, t.bandai.chr[0])) =
      some (#v[8, 0, 0], 1, 8) ∧
    (nextOf (step (queued 0x00B00280#32 saw0))).map (fun t => (t.saw.regs, t.saw.update)) = some (#v[0, 0, 0x80], 4) ∧
    (nextOf (step (queued 0x00B00355#32 saw0))).map (fun t => t.saw) = some saw0.saw := by decide +kernel

/-- The memory of P4: tile $01 and tile $FD in their two banks, and the name-table bytes of columns 30, 31 and 0. -/
def latchLine : State :=
  { start 10 2 16 .vertical .none .mmc4 with
    mmc := { mmcReset .vertical with chrFd1 := 2 }
    chrRom := memoryOf [(4 * 1024 + 0x010, 0xFF), (8 * 1024 + 0x018, 0xFF), (7 * 1024 + 0x3D0, 0xF0), (11 * 1024 + 0x3D0, 0x0F),
      (11 * 1024 + 0x3D8, 0x0F)]
    ciram := memoryOf [(30, 0x01), (31, 0xFD), (0x3C7, 0x0C), (1024, 0x01), (1024 + 0x3C0, 0x01)] }

/-- P4 step 3: a latch moves inside the line. LINE 0-7:13 8-11:0 12-15:15 16-23:6 24-255:0. -/
theorem test_render_latch :
    (nextOf (step (queued 0x5034001E#32 latchLine))).map (fun t => (t.line.toList.take 32, t.mmc.latch1, t.view.chrSlot)) =
      some (List.replicate 8 13 ++ List.replicate 4 0 ++ List.replicate 4 15 ++ List.replicate 8 6 ++ List.replicate 8 0, 0xFD,
        #v[0, 1, 2, 3, 8, 9, 10, 11]) := by decide +kernel

/-- R3 of section 44: fine_x 5, with the table toggle at tile 32. -/
theorem test_render_fine_x :
    (nextOf (step (queued 0x50329000#32 { square0 with
      chrRom := memoryOf [(0x10, 0xFF), (0x11, 0xAA), (0x19, 0xCC)]
      ciram := memoryOf [(0, 1), (2, 1), (31, 1), (64, 1), (66, 1), (0x3C0, 0xE4), (1024, 1), (1024 + 0x3C0, 2)] }))).map
      (fun t => (t.line.toList.take 18, t.line.toList.drop 243)) =
      some ([2, 1, 0, 0, 0, 0, 0, 0, 0, 0, 0, 7, 6, 5, 0, 7, 6, 5], [3, 2, 1, 0, 3, 2, 1, 0, 11, 10, 9, 0, 11]) := by decide +kernel

/-- P3's end state. -/
def walkedMmc2 : State := { mmc20 with mmc := ⟨5, 2, 3, 4, 6, .horizontal, 0xFD, 0xFE⟩ }

/-- E8: the bytes of SAVE after P3, and what LOAD makes of them. -/
theorem test_save_load :
    (nextOf (step (queued 0x70000000#32 walkedMmc2))).map (fun t => t.stream) =
      some [0x05, 0x02, 0x03, 0x04, 0x06, 0xFD, 0xFE, 0x01] ∧
    (nextOf (step (queued 0x80000000#32 { mmc20 with stream := [0x05, 0x02, 0x03, 0x04, 0x06, 0xFD, 0xFE, 0x01] }))).map
      (fun t => (t.mmc, t.view.prgSlot, t.view.chrSlot)) =
      some (⟨5, 2, 3, 4, 6, .horizontal, 0xFD, 0xFE⟩, #v[5, 13, 14, 15], #v[8, 9, 10, 11, 24, 25, 26, 27]) ∧
    refusalIn (step (queued 0x80000000#32 { mmc20 with stream := [0x05, 0x02, 0x03, 0x04, 0x06, 0xFC, 0xFE, 0x01] })) =
      some .badStream := by decide +kernel

/-- P5's second SAVE: square 0 after four SAMPLEs. -/
theorem test_save_square :
    (nextOf (exec .save { square0 with
      da := 0x10
      sq0 := { square0.sq0 with
        regs := #v[0x9F, 0, 0xFD, 0x08], key := true, enabled := true, length := 252, envVol := 15, dutyPos := 2,
        envPhase := 0x1D2100000, wavePhase := 0x05B00000 } })).map (fun t => (t.stream.drop 15).take 44) =
      some [0x9F, 0x00, 0xFD, 0x08, 0x00, 0x01, 0x01, 0xFC, 0x0F, 0x02, 0x00, 0x00, 0x00, 0x00, 0x10, 0xD2, 0x01, 0x00, 0x00, 0x00,
        0x00, 0x00, 0x00, 0x00, 0x00, 0x00, 0x00, 0x00, 0x00, 0x00, 0x00, 0x00, 0x00, 0x00, 0x00, 0x00, 0x00, 0x00, 0xB0, 0x05,
        0x00, 0x00, 0x00, 0x00] := by decide +kernel

/-- Section 43: RESET of an armed counter. -/
theorem test_reset :
    (nextOf (step (queued 0x40000000#32 (armed 5)))).map (fun t => (t.bandai, t.out.irqEdge)) =
      some (bandaiReset .horizontal, false) := by decide +kernel

/-- Section 30: the reserved kinds. -/
theorem test_reserved :
    refusalIn (step (queued 0xA0000000#32 bandai0)) = some (.reservedKind 0xA) ∧
    refusalIn (step (queued 0xFFFFFFFF#32 State.reset)) = some (.reservedKind 0xF) := by decide +kernel

/-- R72: PRG ROM through slot 3, and no answer below $8000. -/
theorem test_cpu_read :
    (nextOf (step { bandai0 with prgRom := memoryOf [(15 * 8192 + 0x1FFC, 0xC5)], inputs := [.cpuRead 0xFFFC] })).map
      (fun t => t.out.cpuRead) = some (some 0xC5) ∧
    (nextOf (step { bandai0 with inputs := [.cpuRead 0x7FFF] })).map (fun t => t.out.cpuRead) = some none := by decide +kernel

/-- The interface the host uses: a row's word is decoded and is what the next step runs. -/
theorem test_fetch_word :
    decodeTableWord 32 0x00F00001 = some (.mmcMirror 0xF000 1) ∧ decodeTableWord 32 0x00800803 = some (.bandaiPrg 0x8008 3) ∧
    decodeTableWord 32 0x00501501 = some (.sqEnable 1) ∧ decodeTableWord 32 0x00B00207 = some (.sawR2 0xB002 7) ∧
    (nextOf (step (State.reset.withFetchWord 32 0x00800803))).map (fun t => (t.bandai.prg, t.pos)) = some (3, 1) ∧
    (nextOf (step (State.reset.withFetchWord 32 0x80000000))).map (fun t => t.bandai.chr) = some (.replicate 8 0) := by
  decide +kernel

/-! ## The obligations' hypotheses can be met: states and operands, at the ends of their ranges

A witness has the name of its obligation. The small cartridges below meet CartOk and ViewOk; the clauses on words and addresses
are met at the boundary values. -/

/-- Every small cartridge has page counts INIT accepts and the variant of its id. -/
theorem witness_CartOk :
    CartOk bandai0 ∧ CartOk mmc20 ∧ CartOk mmc40 ∧ CartOk sunsoft0 ∧ CartOk square0 ∧ CartOk saw0 :=
  ⟨fun _ => ⟨⟨3, by decide⟩, ⟨4, by decide⟩, by decide, by decide⟩, fun _ => ⟨⟨3, by decide⟩, ⟨4, by decide⟩, by decide, by decide⟩,
    fun _ => ⟨⟨3, by decide⟩, ⟨4, by decide⟩, by decide, by decide⟩, fun _ => ⟨⟨1, by decide⟩, ⟨4, by decide⟩, by decide, by decide⟩,
    fun _ => ⟨⟨1, by decide⟩, ⟨0, by decide⟩, by decide, by decide⟩, fun _ => ⟨⟨1, by decide⟩, ⟨0, by decide⟩, by decide, by decide⟩⟩

/-- Every small cartridge shows its pushed view. -/
theorem witness_ViewOk :
    ViewOk bandai0 ∧ ViewOk mmc20 ∧ ViewOk mmc40 ∧ ViewOk sunsoft0 ∧ ViewOk square0 ∧ ViewOk saw0 :=
  ⟨fun _ => rfl, fun _ => rfl, fun _ => rfl, fun _ => rfl, fun _ => rfl, fun _ => rfl⟩

/-- Which variant and module each small cartridge has. -/
theorem witness_active :
    bandai0.active = .bandai ∧ mmc20.active = .mmc2 ∧ mmc40.active = .mmc4 ∧ sunsoft0.active = .sunsoft ∧
    square0.active = .bandai ∧ square0.cart.audioOption = .square ∧ saw0.active = .bandai ∧ saw0.cart.audioOption = .saw ∧
    bandai0.cart.audioOption = .none := by decide

theorem witness_BandaiChrSelect : bandai0.active = .bandai ∧ CartOk bandai0 := ⟨rfl, witness_CartOk.1⟩

theorem witness_PrgSelect :
    (CartOk bandai0 ∧ bandai0.active = .bandai ∧ ViewOk bandai0) ∧ (CartOk mmc20 ∧ mmc20.active = .mmc2 ∧ ViewOk mmc20) ∧
    (CartOk mmc40 ∧ mmc40.active = .mmc4 ∧ ViewOk mmc40) ∧ (CartOk sunsoft0 ∧ sunsoft0.active = .sunsoft ∧ ViewOk sunsoft0) :=
  ⟨⟨witness_CartOk.1, rfl, witness_ViewOk.1⟩, ⟨witness_CartOk.2.1, rfl, witness_ViewOk.2.1⟩,
    ⟨witness_CartOk.2.2.1, rfl, witness_ViewOk.2.2.1⟩, ⟨witness_CartOk.2.2.2.1, rfl, witness_ViewOk.2.2.2.1⟩⟩

/-- V = $00, $FF and the codes between select one mode each. -/
theorem witness_MirroringWrites :
    (bandai0.active = .bandai ∧
      ((0x00 : Byte).toNat % 4, MirrorMode.vertical) ∈ ([(0, .vertical), (1, .horizontal), (2, .singleLow), (3, .singleHigh)] : List (Nat × MirrorMode)) ∧
      ((0x01 : Byte).toNat % 4, MirrorMode.horizontal) ∈ ([(0, .vertical), (1, .horizontal), (2, .singleLow), (3, .singleHigh)] : List (Nat × MirrorMode)) ∧
      ((0x02 : Byte).toNat % 4, MirrorMode.singleLow) ∈ ([(0, .vertical), (1, .horizontal), (2, .singleLow), (3, .singleHigh)] : List (Nat × MirrorMode)) ∧
      ((0xFF : Byte).toNat % 4, MirrorMode.singleHigh) ∈ ([(0, .vertical), (1, .horizontal), (2, .singleLow), (3, .singleHigh)] : List (Nat × MirrorMode))) ∧
    (mmc20.active = .mmc2 ∨ mmc20.active = .mmc4) ∧
    ((0xFE : Byte).toNat % 2, MirrorMode.vertical) ∈ ([(0, .vertical), (1, .horizontal)] : List (Nat × MirrorMode)) ∧
    ((0xFF : Byte).toNat % 2, MirrorMode.horizontal) ∈ ([(0, .vertical), (1, .horizontal)] : List (Nat × MirrorMode)) := by decide

theorem witness_BandaiIrqControl :
    bandai0.active = .bandai ∧ bandai0.bandai.irqLatch = 0 ∧ (0x01 : Byte).toNat % 2 = 1 := by decide

theorem witness_BandaiLatchBytes : bandai0.active = .bandai := rfl

theorem witness_IgnoredWrites :
    bandai0.active = .bandai ∧ (mmc40.active = .mmc2 ∨ mmc40.active = .mmc4) ∧
    saw0.active ≠ .none ∧ saw0.cart.audioOption = .saw := by decide

theorem witness_MmcChrRegisters :
    ((mmc20.active = .mmc2 ∨ mmc20.active = .mmc4) ∧ CartOk mmc20) ∧ (mmc40.active = .mmc2 ∨ mmc40.active = .mmc4) ∧ CartOk mmc40 :=
  ⟨⟨.inl rfl, witness_CartOk.2.1⟩, .inr rfl, witness_CartOk.2.2.1⟩

/-- Both latches at $FD. -/
def latchedFd : State := { mmc40 with mmc := { mmc40.mmc with latch0 := 0xFD, latch1 := 0xFD } }

/-- Each register with its latch at the other tile, and the first or last address of its tile in its half. -/
theorem witness_LatchDeferredWrites :
    CartOk mmc20 ∧ CartOk latchedFd ∧
    ((mmc20.active = .mmc2 ∨ mmc20.active = .mmc4) ∧ mmc20.mmc.latch0 ≠ 0xFD ∧ mmc20.mmc.latch1 ≠ 0xFD ∧
      (0x0FD0 : PpuAddr).toNat / 4096 = 0 ∧ (0x0FD0 : PpuAddr).toNat / 16 % 256 = (0xFD : Byte).toNat ∧
      (0x1FDF : PpuAddr).toNat / 4096 = 1 ∧ (0x1FDF : PpuAddr).toNat / 16 % 256 = (0xFD : Byte).toNat) ∧
    (latchedFd.active = .mmc2 ∨ latchedFd.active = .mmc4) ∧ latchedFd.mmc.latch0 ≠ 0xFE ∧ latchedFd.mmc.latch1 ≠ 0xFE ∧
    (0x0FEF : PpuAddr).toNat / 4096 = 0 ∧ (0x0FEF : PpuAddr).toNat / 16 % 256 = (0xFE : Byte).toNat ∧
    (0x1FE0 : PpuAddr).toNat / 4096 = 1 ∧ (0x1FE0 : PpuAddr).toNat / 16 % 256 = (0xFE : Byte).toNat :=
  ⟨witness_CartOk.2.1, fun _ => ⟨⟨3, by decide⟩, ⟨4, by decide⟩, by decide, by decide⟩, by decide⟩

/-- The addresses of LatchDeferredWrites move a latch. Above $1FFF, at tiles $FC and $FF, and on BANDAI nothing moves. -/
theorem witness_PpuLatchMovesLatch :
    CartOk mmc20 ∧ CartOk bandai0 ∧ CartOk sunsoft0 ∧
    mmc20.active ≠ .none ∧ (mmc20.active = .mmc2 ∨ mmc20.active = .mmc4) ∧
    (0x0FD0 : PpuAddr).toNat / 16 % 256 = 0xFD ∧ (0x1FEF : PpuAddr).toNat / 16 % 256 = 0xFE ∧
    0x2000 ≤ (0x2000 : PpuAddr).toNat ∧
    ((0x0FCF : PpuAddr).toNat / 16 % 256 ≠ 0xFD ∧ (0x0FCF : PpuAddr).toNat / 16 % 256 ≠ 0xFE) ∧
    ((0x1FF0 : PpuAddr).toNat / 16 % 256 ≠ 0xFD ∧ (0x1FF0 : PpuAddr).toNat / 16 % 256 ≠ 0xFE) ∧
    bandai0.active = .bandai ∧ sunsoft0.active = .sunsoft ∧
    (ViewOk mmc20 ∧ mmc20.mmc.latch0 = 0xFE ∧ (0x0FE0 : PpuAddr).toNat / 4096 = 0 ∧
      (0x0FE0 : PpuAddr).toNat / 16 % 256 = (0xFE : Byte).toNat) :=
  ⟨witness_CartOk.2.1, witness_CartOk.1, witness_CartOk.2.2.2.1, by decide, by decide, by decide, by decide, by decide, by decide,
    by decide, by decide, by decide, witness_ViewOk.2.1, by decide⟩

theorem witness_SunsoftChrSelect : sunsoft0.active = .sunsoft ∧ CartOk sunsoft0 := ⟨rfl, witness_CartOk.2.2.2.1⟩

theorem witness_SunsoftNameTables :
    sunsoft0.active = .sunsoft ∧ CartOk sunsoft0 ∧ ViewOk sunsoft0 ∧ sunsoft0.sunsoft.ntctl.toNat / 16 % 2 = 0 :=
  ⟨rfl, witness_CartOk.2.2.2.1, witness_ViewOk.2.2.2.1, rfl⟩

theorem witness_ScanlineCommit :
    (bandai0.active = .bandai ∧ bandai0.bandai.irqEnable = false) ∧ (armed 1).active = .bandai ∧ (armed 1).bandai.irqEnable = true := by
  decide

theorem witness_PredictAnswers :
    (armed 1).active ≠ .none ∧ sunsoft0.active ≠ .none ∧ sunsoft0.active ≠ .bandai := by decide

theorem witness_PredictMatchesCommit : (armed 0).active ≠ .none := by decide

/-- An armed counter with a bank write, a PREDICT and a commit in between. -/
theorem witness_CommitLookAhead :
    ((armed 2).active = .bandai ∧ (armed 2).bandai.irqEnable = true ∧ 1 ≤ (armed 2).args.pseudoClocks ∧
      (∀ i ∈ ([.bandaiPrg 0x8008 1, .predict 0, .scanlineStart 0] : List Instr), ¬i.Rearms) ∧
      ∃ t, runInstrs [.bandaiPrg 0x8008 1, .predict 0, .scanlineStart 0] (armed 2) = some t) ∧
    bandai0.bandai.irqEnable = false ∧
    (∀ i ∈ ([.bandaiIrqctl 0x800A 0, .scanlineStart 0] : List Instr), ¬i.MayEnable) ∧
    ∃ t u, runInstrs [.bandaiIrqctl 0x800A 0, .scanlineStart 0] bandai0 = some t ∧ exec (.scanlineStart 1) t = .next u := by
  refine ⟨⟨rfl, rfl, by decide, ?_, _, rfl⟩, rfl, ?_, _, _, rfl, rfl⟩
  · intro i hi
    simp only [List.mem_cons, List.not_mem_nil, or_false] at hi
    rcases hi with rfl | rfl | rfl <;> simp [Instr.Rearms, Instr.kind, encode] <;> decide
  · intro i hi
    simp only [List.mem_cons, List.not_mem_nil, or_false] at hi
    rcases hi with rfl | rfl <;> simp [Instr.MayEnable]

/-- RenderWithoutTiles, RenderLatchBeforeComposite, RenderRangeAndFrame and RenderLeftClip ask only this. -/
theorem witness_RenderWithoutTiles : bandai0.active ≠ .none ∧ latchLine.active ≠ .none := by decide

/-- Each case of RenderPixels: a variant without latches, and a line without trigger tiles on one that has them. -/
theorem witness_RenderPixels :
    (bandai0.active ≠ .none ∧ bandai0.active = .bandai) ∧ sunsoft0.active = .sunsoft ∧
    mmc20.active ≠ .none ∧ lineTriggers mmc20 0 = [] := by decide +kernel

theorem witness_RenderLatchBeforeComposite : latchLine.active ≠ .none ∧ lineTriggers latchLine 0x001E = [0xFD] := by decide +kernel

theorem witness_RenderRangeAndFrame : bandai0.active ≠ .none ∧ (bandai0.active = .bandai ∨ bandai0.active = .sunsoft) := by decide

/-- A line with a trigger tile and one without. -/
theorem witness_RenderLatchAfterLine :
    (latchLine.active = .mmc2 ∨ latchLine.active = .mmc4) ∧ lineTriggers latchLine 0x001E = [0xFD] ∧ lineTriggers latchLine 0 ≠ [0xFE] := by
  decide +kernel

theorem witness_RenderLeftClip : latchLine.active ≠ .none := by decide

theorem witness_AudioRegisterWrites :
    (square0.active ≠ .none ∧ square0.cart.audioOption = .square) ∧ saw0.active ≠ .none ∧ saw0.cart.audioOption = .saw := by decide

/-- Both channels keyed, one bit of V set. -/
theorem witness_SquareEnableAndDirectAudio :
    sampledTwice.active ≠ .none ∧ sampledTwice.cart.audioOption = .square ∧ sampledTwice.sq0.key = true ∧
    (0x02 : Byte).toNat % 2 ≠ 1 ∧ (0x02 : Byte).toNat / 2 % 2 = 1 := by decide

theorem witness_SampleAnswers :
    (bandai0.active ≠ .none ∧ bandai0.cart.audioOption = .none) ∧ (square0.active ≠ .none ∧ square0.cart.audioOption = .square) ∧
    saw0.active ≠ .none ∧ saw0.cart.audioOption = .saw := by decide

/-- A square silent, one sounding and not muted, one muted by a period of 7, both saws, and the release step's cases at 1 and 0. -/
theorem witness_ChannelStages :
    ((squareGate ap square0.sq0).key = false ∧ (squareGate ap square0.sq0).release = 0) ∧
    ((squareGate ap sampledTwice.sq0).key = true ∧
      squareMuted ap (squareSweep ap (squareLength ap (squareEnvelope ap (squareGate ap sampledTwice.sq0)))).d = false) ∧
    ((squareGate ap { sampledTwice.sq0 with d := squareDecode ap #v[0, 0, 7, 0] }).key = true ∧
      squareMuted ap (squareSweep ap (squareLength ap (squareEnvelope ap
        (squareGate ap { sampledTwice.sq0 with d := squareDecode ap #v[0, 0, 7, 0] })))).d = true) ∧
    ((sawGate ap saw0.saw).key = false ∧ (sawGate ap saw0.saw).release = 0) ∧
    (sawGate ap { saw0.saw with release := 1 }).release ≠ 0 ∧
    (square0.sq0.key = false ∧ 0 < { square0.sq0 with release := 1 }.release.toNat) ∧
    (sampledTwice.sq0.key = true ∧ square0.sq0.release = 0) ∧
    (saw0.saw.key = false ∧ 0 < { saw0.saw with release := 1 }.release.toNat) ∧
    ({ saw0.saw with key := true }.key = true ∧ saw0.saw.release = 0) := by decide +kernel

/-- The step functions not given, and given as zeros. -/
theorem witness_SquareDecodeFields :
    (ap.envStepGiven = none ∧ ap.lenStepGiven = none ∧ ap.sweepStepGiven = none) ∧
    { ap with envStepGiven := some (.replicate 16 0) }.envStepGiven = some (.replicate 16 0) ∧
    { ap with lenStepGiven := some 0 }.lenStepGiven = some 0 ∧
    { ap with sweepStepGiven := some (.replicate 8 0) }.sweepStepGiven = some (.replicate 8 0) := by decide

theorem witness_SquareRecompute :
    square0.sq0.update = 0 ∧
    (pendingSquare.sq0.update ≠ 0 ∧ pendingSquare.sq0.update.toNat / 8 % 2 = 1 ∧ pendingSquare.sq0.enabled = true) ∧
    ((2 : BitVec 4) ≠ 0 ∧ (2 : BitVec 4).toNat / 8 % 2 = 0) ∧
    ((8 : BitVec 4) ≠ 0 ∧ square0.sq0.enabled = false) := by decide +kernel

/-- The clauses at key off, loop on, the length reached exactly and one clock short of it. -/
theorem witness_LengthCounter :
    square0.sq0.key = false ∧ (squareDecode ap #v[0x20, 0, 0, 0]).loop = true ∧
    (sampledTwice.sq0.key = true ∧ sampledTwice.sq0.d.loop = false ∧
      (14914 * 2 ^ 18 + ap.cps) / max 1 ap.lenStep = 1 ∧
      (1 : Byte).toNat ≤ (14914 * 2 ^ 18 + ap.cps) / max 1 ap.lenStep ∧
      (14914 * 2 ^ 18 + ap.cps) / max 1 ap.lenStep < (2 : Byte).toNat) := by decide +kernel

/-- Period 7 is below the floor, $400 with shift 0 passes $7FF, $3FF does not, and 8 is the floor itself. -/
theorem witness_SweepClock :
    (squareDecode ap #v[0, 0, 7, 0]).period.toNat < ap.periodFloor ∧
    0x7FF < (squareDecode ap #v[0, 0, 0, 4]).period.toNat + (squareDecode ap #v[0, 0, 0, 4]).period.toNat / 2 ^ 0 ∧
    (ap.periodFloor ≤ (squareDecode ap #v[0, 0, 0xFF, 3]).period.toNat ∧
      (squareDecode ap #v[0, 0, 0xFF, 3]).period.toNat + (squareDecode ap #v[0, 0, 0xFF, 3]).period.toNat / 2 ^ 0 ≤ 0x7FF) ∧
    ap.periodFloor ≤ (squareDecode ap #v[0, 0, 8, 0]).period.toNat := by decide +kernel

/-- The default table, at the last shift. -/
theorem witness_MuteAboveCeiling :
    ap.ceiling = ceilingTable ∧ ap.ceiling[(7 : BitVec 3).toNat] = 0x7F0 ∧ 0x7F0 + 0x7F0 / 2 ^ 7 ≤ 0x7FF ∧
    0x7FF < 0x7F1 + 0x7F1 / 2 ^ 7 := by decide

theorem witness_WaveAndOutput :
    ap.outSq = .linear ∧ ap.outSaw = .linear ∧ { ap with releaseStart := 1 }.releaseStart ≠ 0 := by decide

/-- Nothing pending, key-on, key-off, and a pending write that leaves the key. -/
theorem witness_SawRecompute :
    saw0.saw.update = 0 ∧
    ((sawDecode ap #v[0, 0, 0x80]).enable = true ∧ saw0.saw.key = false) ∧
    ((sawDecode ap #v[0, 0, 0x7F]).enable = false ∧ { saw0.saw with key := true }.key = true) ∧
    ((1 : BitVec 3) ≠ 0 ∧ (sawDecode ap saw0.saw.regs).enable = saw0.saw.key) := by decide +kernel

/-- step_pos 13, 11, 12 and 14 ticks. -/
theorem witness_SawClockClosedForm :
    ((13 : BitVec 4).toNat ≤ 13 ∧ (13 : BitVec 4).toNat + 1 = 14) ∧
    ((11 : BitVec 4).toNat + 1 < 14 ∧ (11 : BitVec 4).toNat % 2 = 1) ∧
    (12 : BitVec 4).toNat % 2 = 0 ∧ 14 ≤ 14 := by decide

theorem witness_PhasesBoundedAfterSample :
    (sampledTwice.active ≠ .none ∧ AudioOk sampledTwice ∧ sampledTwice.cart.audioOption = .square ∧
      (squareGate ap sampledTwice.sq0).key = true ∧ sampledTwice.sq0.d.loop = false) ∧
    saw0.active ≠ .none ∧ AudioOk saw0 ∧ saw0.cart.audioOption = .saw ∧
    (sawGate ap { saw0.saw with release := 1 }).release ≠ 0 := by
  unfold AudioOk SquareOk SawOk
  decide +kernel

theorem witness_DerivedConstantsKept :
    (∃ t, exec .sample sampledTwice = .next t ∧ sampledTwice.cart.audioOption = .square ∧ t.sq0.d.sweepEn = false) ∧
    ∃ t, exec .sample saw0 = .next t ∧ saw0.cart.audioOption = .saw :=
  ⟨⟨_, rfl, rfl, by decide +kernel⟩, _, rfl, rfl⟩

theorem witness_ResetRestoresEverything :
    (bandai0.active ≠ .none ∧ CartOk bandai0) ∧ (mmc20.active ≠ .none ∧ CartOk mmc20) ∧ (mmc40.active ≠ .none ∧ CartOk mmc40) ∧
    (sunsoft0.active ≠ .none ∧ CartOk sunsoft0) ∧ (square0.active ≠ .none ∧ CartOk square0) ∧ saw0.active ≠ .none ∧ CartOk saw0 :=
  ⟨⟨by decide, witness_CartOk.1⟩, ⟨by decide, witness_CartOk.2.1⟩, ⟨by decide, witness_CartOk.2.2.1⟩,
    ⟨by decide, witness_CartOk.2.2.2.1⟩, ⟨by decide, witness_CartOk.2.2.2.2.1⟩, by decide, witness_CartOk.2.2.2.2.2⟩

/-- Each branch of INIT: MMC2's minimum, PRG counts 3 and 255, CHR counts 0 and 3, and the largest accepted counts. -/
theorem witness_InitOutcomes :
    ((2 : BitVec 2).toNat, AudioOption.saw) ∈ ([(0, .none), (1, .square), (2, .saw)] : List (Nat × AudioOption)) ∧
    ((8 : Byte) ≠ 9 ∧ (8 : Byte) ≠ 10 ∧ (8 : Byte) ≠ 16 ∧ (8 : Byte) ≠ 68) ∧
    (1 : Byte).toNat < 2 ∧ (0 : Byte).toNat < 1 ∧
    (1 ≤ (255 : Byte).toNat ∧ ¬PowerOfTwo (255 : Byte).toNat) ∧ (2 ≤ (3 : Byte).toNat ∧ ¬PowerOfTwo (3 : Byte).toNat) ∧
    (2 ≤ (128 : Byte).toNat ∧ PowerOfTwo (128 : Byte).toNat) ∧ (1 ≤ (1 : Byte).toNat ∧ PowerOfTwo (1 : Byte).toNat) := by
  have two_pow_ne : ∀ n k : Nat, n < 256 → (∀ j < 8, n ≠ 2 ^ j) → n ≠ 2 ^ k := fun n k hn h e =>
    h k (Nat.pow_lt_pow_iff_right (by decide : 1 < 2) |>.mp (by omega)) e
  exact ⟨by decide, by decide, by decide, by decide, ⟨by decide, fun ⟨k, e⟩ => two_pow_ne 255 k (by decide) (by decide) e⟩,
    ⟨by decide, fun ⟨k, e⟩ => two_pow_ne 3 k (by decide) (by decide) e⟩, ⟨by decide, 7, by decide⟩, ⟨by decide, 0, by decide⟩⟩

/-- The same INIT on two blocks that differ, one of them never claimed. -/
theorem witness_InitReplacesEverything :
    { State.reset with args := ap }.args = (armed 5).args ∧
    (nextOf (exec (.init 9 2 1 1 2) { State.reset with args := ap })).map (fun t => t.out.initResult) = some (some .ok) := by
  decide +kernel

/-- A failed INIT, a transaction that is no INIT, and its word. -/
theorem witness_RefusedBeforeInit :
    (nextOf (exec (.init 9 1 1 0 0) bandai0)).map (fun t => t.out.initResult) = some (some .insufficient) ∧
    (InitResult.insufficient ≠ .ok) ∧
    State.reset.active = .none ∧ Instr.isInit .save = false ∧ Instr.isReserved .save = false ∧ Instr.isInit (.reservedF 0) = false ∧
    (queued 0x70000000#32 State.reset).active = .none ∧
    (queued 0x70000000#32 State.reset).inputs = [.transaction 0x70000000#32] ∧ (0x70000000#32).toNat / 2 ^ 28 ≠ 9 := by decide +kernel

theorem witness_SaveBytes : bandai0.active ≠ .none := by decide

/-- A stream one byte short and one that is whole, for each audio module. -/
theorem witness_LoadChecksAndEffect :
    (bandai0.active ≠ .none ∧ streamLegal { bandai0 with stream := List.replicate 14 0 } = false ∧
      streamLegal { bandai0 with stream := List.replicate 15 0 } = true) ∧
    (square0.active ≠ .none ∧ streamLegal { square0 with stream := List.replicate 103 0 } = false ∧
      streamLegal { square0 with stream := List.replicate 104 0 } = true ∧ square0.cart.audioOption = .square) ∧
    (saw0.active ≠ .none ∧ streamLegal { saw0 with stream := List.replicate 31 0 } = false ∧
      streamLegal { saw0 with stream := List.replicate 32 0 } = true ∧ saw0.cart.audioOption = .saw) := by decide +kernel

theorem witness_SaveLoadRoundTrip :
    (sampledTwice.active ≠ .none ∧ ViewOk sampledTwice ∧ LatchOk sampledTwice ∧ AudioOk sampledTwice ∧ PhasesFit sampledTwice ∧
      sampledTwice.sq0.update = 0 ∧ sampledTwice.sq1.update = 0) ∧
    saw0.active ≠ .none ∧ ViewOk saw0 ∧ LatchOk saw0 ∧ AudioOk saw0 ∧ PhasesFit saw0 ∧ saw0.saw.update = 0 := by
  unfold ViewOk LatchOk AudioOk SquareOk SawOk PhasesFit SquarePhasesFit
  decide +kernel

theorem witness_DerivedUnreadWhilePending :
    pendingSquare.sq0.update ≠ 0 ∧ { saw0.saw with update := 4 }.update ≠ 0 := by decide

/-- The first bad word of each test of R108, and the last good ones. -/
theorem witness_DecodeValidity :
    (queued 0xA0000000#32 bandai0).inputs = [.transaction 0xA0000000#32] ∧ invalidWord 0xA0000000 = true ∧
    invalidWord 0x01000000 = true ∧ invalidWord 0x10004000 = true ∧ invalidWord 0x20000200 = true ∧ invalidWord 0x40000001 = true ∧
    invalidWord 0x50400000 = true ∧ invalidWord 0x900C0000 = true ∧
    invalidWord 0x00FFFFFF = false ∧ invalidWord 0x10003FFF = false ∧ invalidWord 0x200001FF = false ∧ invalidWord 0x40000000 = false ∧
    invalidWord 0x503FFFFF = false ∧ invalidWord 0x9FFBFFFF = false := by decide

theorem witness_DecodeOfEncode :
    ((Instr.bandaiPort15 0xFFFF 0xFF).wf = true ∧ (Instr.bandaiPort15 0xFFFF 0xFF).componentOf ⟨.bandai, .saw⟩) ∧
    (Instr.sawR0 0xBFFC 0x00).wf = true ∧ (Instr.sawR0 0xBFFC 0x00).componentOf ⟨.bandai, .saw⟩ :=
  ⟨⟨by decide, rfl⟩, by decide, rfl⟩

theorem witness_EncodeOfDecode :
    (decode ⟨.mmc4, .saw⟩ 0x00B00207#32 = .ok (.write (some (.mmcChrfd0 0xB002 0x07)) (some (.sawR2 0xB002 0x07))) ∧
      Decoded.holds (.write (some (.mmcChrfd0 0xB002 0x07)) (some (.sawR2 0xB002 0x07))) (.sawR2 0xB002 0x07)) ∧
    decode ⟨.none, .none⟩ 0x60000000#32 = .ok (.one .sample) ∧ Decoded.holds (.one .sample) .sample :=
  ⟨⟨rfl, .inr rfl⟩, rfl, rfl⟩

/-- Each clause of StepRunsDecodedWord: a word that does not decode, one instruction, a write before INIT, one no component
claims, one that the mapper or the audio module claims, and one both claim. -/
theorem witness_StepRunsDecodedWord :
    (queued 0x40000001#32 bandai0).inputs = [.transaction 0x40000001#32] ∧
    decode bandai0.selection 0x40000001#32 = .error .mustBeZero ∧
    decode bandai0.selection 0x40000000#32 = .ok (.one .reset) ∧
    (decode State.reset.selection 0x00800803#32 = .ok (.write none none) ∧ State.reset.active = .none) ∧
    (decode square0.selection 0x005FFF00#32 = .ok (.write none none) ∧ square0.active ≠ .none) ∧
    decode square0.selection 0x00501501#32 = .ok (.write none (some (.sqEnable 1))) ∧
    decode saw0.selection 0x00B00207#32 = .ok (.write (some (.bandaiChr2 0xB002 7)) (some (.sawR2 0xB002 7))) ∧
    (nextOf (exec (.bandaiChr2 0xB002 7) saw0)).isSome = true ∧ (nextOf (exec (.sqEnable 1) square0)).isSome = true :=
  ⟨rfl, rfl, rfl, ⟨rfl, rfl⟩, ⟨rfl, by decide⟩, rfl, rfl, rfl, rfl⟩

/-- The last address below each variant's windows, and the neighbours of the audio registers. -/
theorem witness_UnclaimedWrites :
    (bandai0.active = .bandai ∧ (0x5FFF : Addr).toNat < 0x6000) ∧
    ((mmc20.active = .mmc2 ∨ mmc20.active = .mmc4) ∧ (0x9FFF : Addr).toNat < 0xA000) ∧
    (sunsoft0.active = .sunsoft ∧ (0x7FFF : Addr).toNat < 0x8000) ∧
    (square0.cart.audioOption = .square ∧ (0x4FFF : Addr).toNat < 0x5000 ∧ 0x5007 < (0x5008 : Addr).toNat ∧
      (0x5008 : Addr).toNat ≠ 0x5011 ∧ (0x5008 : Addr).toNat ≠ 0x5015 ∧ (0x5008 : Addr).toNat < 0x6000) ∧
    (saw0.cart.audioOption = .saw ∧ (0x5FFF : Addr).toNat < 0xB000) ∧
    (queued (wrWord 0x5FFF 1) bandai0).inputs = [.transaction (wrWord 0x5FFF 1)] := by decide

theorem witness_PositionAdvances :
    (∃ t, step (queued 0x70000000#32 bandai0) = .next t) ∧ (queued 0x70000000#32 bandai0).inputs = [.transaction 0x70000000#32] ∧
    bandai0.inputs = [] :=
  ⟨⟨_, rfl⟩, rfl, rfl⟩

/-- A commit that raises the edge, and a bank write, which is none of the listed writers. -/
theorem witness_WhoWritesWhat :
    (∃ t, exec (.scanlineStart 0) (armed 1) = .next t ∧ t.out.irqEdge = true) ∧
    (∃ t, exec (.bandaiPrg 0x8008 1) (armed 1) = .next t) ∧ Instr.isInit (.bandaiPrg 0x8008 1) = false ∧
    Instr.isRender (.bandaiPrg 0x8008 1) = false ∧ Instr.mayMoveLatch (.bandaiPrg 0x8008 1) = false ∧
    Instr.isCommit (.bandaiPrg 0x8008 1) = false ∧ ¬(Instr.bandaiPrg 0x8008 1).Rearms :=
  ⟨⟨_, rfl, rfl⟩, ⟨_, rfl⟩, by decide, by decide, by decide, by decide, by simp [Instr.Rearms, Instr.kind, encode]; decide⟩

theorem witness_RepeatedWrites :
    (Instr.isBusWrite (.sqEnable 0) = true ∧ ∃ t, exec (.sqEnable 0) sampledTwice = .next t) ∧
    ∃ t, exec (.ppuLatch 0x1FD0) mmc20 = .next t :=
  ⟨⟨by decide, _, rfl⟩, _, rfl⟩

/-- A claimed cartridge whose name tables are CHR pages, and the first address of the last window. -/
theorem witness_PagesExist :
    (mmc20.active ≠ .none ∧ CartOk mmc20 ∧ ViewOk mmc20 ∧ 0xE000 ≤ (0xE000 : Addr).toNat) ∧
    (sunsoftView sunsoft0.cart { sunsoft0.sunsoft with ntctl := 0x10 }).ntSrc[0] = .chr 0 :=
  ⟨⟨by decide, witness_CartOk.2.1, witness_ViewOk.2.1, by decide⟩, by decide⟩

/-- $8000 and $7FFF, and a name table of each kind. -/
theorem witness_ReadsThroughView :
    { bandai0 with inputs := [.cpuRead 0x8000] }.inputs = [.cpuRead 0x8000] ∧ 0x8000 ≤ (0x8000 : Addr).toNat ∧
    (0x7FFF : Addr).toNat < 0x8000 ∧ (0x1FFF : PpuAddr).toNat < 0x2000 ∧ bandai0.view.ntSrc[(3 : BitVec 2).toNat] = .ciram 1 ∧
    (sunsoftView sunsoft0.cart { sunsoft0.sunsoft with ntctl := 0x10 }).ntSrc[(3 : BitVec 2).toNat] = .chr 0 := by decide

theorem witness_CiramWrites :
    { bandai0 with inputs := [.ciramWrite 0x7FF 0] }.inputs = [.ciramWrite 0x7FF 0] ∧ (0x7FE : Nat) ≠ (0x7FF : BitVec 11).toNat := by
  decide

theorem witness_StepKeepsInvariant :
    Inv sampledTwice ∧ ∃ t, step (queued 0x60000000#32 sampledTwice) = .next t := by
  refine ⟨⟨fun _ => ⟨⟨1, by decide⟩, ⟨0, by decide⟩, by decide, by decide⟩, ?_⟩, _, rfl⟩
  unfold ViewOk LatchOk MemoryOk AudioOk SquareOk SawOk
  decide +kernel

/-- A stream one byte short and one that is whole, each handed over before a LOAD. -/
theorem witness_SaveStreamHandover :
    let s := { bandai0 with inputs := [.saveStream (List.replicate 14 0), .transaction 0x80000000#32] }
    let s' := { bandai0 with inputs := [.saveStream (List.replicate 15 0), .transaction 0x80000000#32] }
    (s.active ≠ .none ∧ s.inputs = .saveStream (List.replicate 14 0) :: .transaction 0x80000000#32 :: [] ∧
      streamLegal { s with stream := List.replicate 14 0 } = false) ∧
    s'.active ≠ .none ∧ s'.inputs = .saveStream (List.replicate 15 0) :: .transaction 0x80000000#32 :: [] ∧
      streamLegal { s' with stream := List.replicate 15 0 } = true := by decide +kernel

/-- R8: both windows of SelectPrg16, and SelectNt of one table. -/
theorem test_select_primitives :
    (selectPrg16 0 5 noView).prgSlot = #v[10, 11, 0, 0] ∧ (selectPrg16 1 5 noView).prgSlot = #v[0, 0, 10, 11] ∧
    (selectNt 2 (.chr 7) noView).ntSrc = #v[.ciram 0, .ciram 1, .chr 7, .ciram 1] := by decide

/-- R300: the default steps follow ENV_UNIT, with the products written out for ENV_UNIT = 100 and CPS_SHIFT = 18. -/
theorem test_env_unit_argument :
    { ap with envUnit := 100 }.envStep[15] = 1600 * 2 ^ 18 ∧ { ap with envUnit := 100 }.lenStep = 200 * 2 ^ 18 ∧
    { ap with envUnit := 100 }.sweepStep[7] = 1600 * 2 ^ 18 := by decide +kernel

/-- R300, R301: another ceiling mutes another period. -/
theorem test_ceiling_argument :
    squareMuted ap (squareDecode ap #v[0, 0, 0xFF, 3]) = false ∧
    squareMuted { ap with ceiling := .replicate 8 0x3FE } (squareDecode ap #v[0, 0, 0xFF, 3]) = true := by decide +kernel

end Sys2Proof.Tests
end

section

/-! PROOFS. How a transaction word runs, one equation per shape of what it decodes to, and the statements of 00_scope.md. -/

namespace Sys2Proof.Machine

/-! ## Bus writes as instructions -/

/-- A mapper's write is an effect of the shell `ready`. -/
theorem exists_ready_of_onMapper {g : State → Result} {ms : List Active} {f : State → State}
    (h : ∀ s, g s = onMapper ms s f) : ∃ f', ∀ s, g s = ready s f' :=
  ⟨fun t => if t.active ∈ ms then f t else t, h⟩

/-- An audio module's write is an effect of the shell `ready`. -/
theorem exists_ready_of_onAudio {g : State → Result} {o : AudioOption} {f : State → State}
    (h : ∀ s, g s = onAudio o s f) : ∃ f', ∀ s, g s = ready s f' :=
  ⟨fun t => if t.cart.audioOption = o then f t else t, h⟩

/-- Every bus write is an effect on the state with the report cleared, run only after INIT (30_encoding.md R109). -/
theorem exec_eq_ready_of_isBusWrite {i : Instr} (hi : i.isBusWrite = true) : ∃ f, ∀ s, exec i s = ready s f := by
  cases i
  case ppuLatch | scanlineStart | predict | reset | renderLine | sample | save | load | init | reservedA | reservedB
      | reservedC | reservedD | reservedE | reservedF => simp [Instr.isBusWrite] at hi
  case sq0R0 | sq0R1 | sq0R2 | sq0R3 | sq1R0 | sq1R1 | sq1R2 | sq1R3 | sqDa | sqEnable | sawR0 | sawR1 | sawR2
      | sawR3 =>
    apply exists_ready_of_onAudio
    intro s
    unfold exec
    rfl
  all_goals exact exists_ready_of_onMapper fun _ => rfl

/-- A bus write runs only after INIT, and does not see whether the report was cleared before it. -/
theorem exec_busWrite_next_iff {i : Instr} (hi : i.isBusWrite = true) (s t : State) :
    exec i s = .next t ↔ s.active ≠ .none ∧ exec i s.clearReport = .next t := by
  obtain ⟨f, hf⟩ := exec_eq_ready_of_isBusWrite hi
  simp only [hf, ready_next, State.clearReport_active, State.clearReport_clearReport, and_self_left]

/-! ## What a bus write's word decodes to (30_encoding.md R102, R109) -/

theorem bandaiPort_isBusWrite {a : Addr} {v : Byte} {i : Instr} (h : bandaiPort a v = some i) : i.isBusWrite = true := by
  unfold bandaiPort at h
  split at h
  · cases h
  · split at h <;> cases h <;> simp [Instr.isBusWrite]

theorem mmcPort_isBusWrite {prg : Addr → Byte → Instr} {a : Addr} {v : Byte} {i : Instr}
    (hp : (prg a v).isBusWrite = true) (h : mmcPort prg a v = some i) : i.isBusWrite = true := by
  unfold mmcPort at h
  split at h
  case h_3 => cases h; exact hp
  all_goals cases h <;> simp [Instr.isBusWrite]

theorem sunsoftPort_isBusWrite {a : Addr} {v : Byte} {i : Instr} (h : sunsoftPort a v = some i) :
    i.isBusWrite = true := by
  unfold sunsoftPort at h
  split at h <;> cases h <;> simp [Instr.isBusWrite]

theorem squarePort_isBusWrite {a : Addr} {v : Byte} {i : Instr} (h : squarePort a v = some i) :
    i.isBusWrite = true := by
  unfold squarePort at h
  split at h <;> cases h <;> simp [Instr.isBusWrite]

theorem sawPort_isBusWrite {a : Addr} {v : Byte} {i : Instr} (h : sawPort a v = some i) : i.isBusWrite = true := by
  unfold sawPort at h
  split at h
  · split at h <;> cases h <;> simp [Instr.isBusWrite]
  · cases h

theorem mapperPort_isBusWrite {m : Active} {a : Addr} {v : Byte} {i : Instr} (h : mapperPort m a v = some i) :
    i.isBusWrite = true := by
  cases m with
  | none => cases h
  | bandai => exact bandaiPort_isBusWrite h
  | mmc2 => exact mmcPort_isBusWrite (by simp [Instr.isBusWrite]) h
  | mmc4 => exact mmcPort_isBusWrite (by simp [Instr.isBusWrite]) h
  | sunsoft => exact sunsoftPort_isBusWrite h

theorem audioPort_isBusWrite {o : AudioOption} {a : Addr} {v : Byte} {i : Instr} (h : audioPort o a v = some i) :
    i.isBusWrite = true := by
  cases o with
  | none => cases h
  | square => exact squarePort_isBusWrite h
  | saw => exact sawPort_isBusWrite h

theorem whenZero_ne_write (n : Nat) (i : Instr) (m a : Option Instr) : whenZero n i ≠ .ok (.write m a) := by
  unfold whenZero
  split <;> simp

/-- A word that decodes to a bus write is what each component makes of its address and value. -/
theorem decode_eq_write {sel : Selection} {w : TxWord} {m a : Option Instr} (h : decode sel w = .ok (.write m a)) :
    m = mapperPort sel.active (wrAddr w) (wrVal w) ∧ a = audioPort sel.audio (wrAddr w) (wrVal w) := by
  unfold decode at h
  split at h
  case h_1 =>
    split at h
    · cases h; exact ⟨rfl, rfl⟩
    · cases h
  case h_2 | h_3 | h_4 | h_5 | h_6 | h_7 | h_8 | h_9 => exact absurd h (whenZero_ne_write _ _ _ _)
  case h_10 => split at h <;> cases h
  all_goals cases h

theorem decode_mapper_isBusWrite {sel : Selection} {w : TxWord} {i : Instr} {a : Option Instr}
    (h : decode sel w = .ok (.write (some i) a)) : i.isBusWrite = true :=
  mapperPort_isBusWrite (decode_eq_write h).1.symm

theorem decode_audio_isBusWrite {sel : Selection} {w : TxWord} {i : Instr} {m : Option Instr}
    (h : decode sel w = .ok (.write m (some i))) : i.isBusWrite = true :=
  audioPort_isBusWrite (decode_eq_write h).2.symm

/-! ## One step with a transaction word next (00_scope.md R9, 10_state.md R24) -/

theorem step_transaction {s : State} {w : TxWord} {rest : List Input} (h : s.inputs = .transaction w :: rest) :
    step s = runWord w (takeInput rest s) := by
  simp only [step, h, deliver]

theorem runWord_of_error {w : TxWord} {s : State} {e : DecodeError} (h : decode s.selection w = .error e) :
    runWord w s = .refused (refusalOf e) := by
  simp only [runWord, h]

theorem runWord_of_ok {w : TxWord} {s : State} {d : Decoded} (h : decode s.selection w = .ok d) :
    runWord w s = andThen (execDecoded d s) fun t => .next t.advance := by
  simp only [runWord, h]

/-- A decoded word that answers a next state advances the position of that state (10_state.md R24). -/
theorem runWord_next {w : TxWord} {s t : State} {d : Decoded} (h : decode s.selection w = .ok d)
    (ht : execDecoded d s = .next t) : runWord w s = .next t.advance := by
  simp only [runWord_of_ok h, ht, andThen]

theorem runWord_refused {w : TxWord} {s : State} {d : Decoded} {r : Refusal} (h : decode s.selection w = .ok d)
    (hr : execDecoded d s = .refused r) : runWord w s = .refused r := by
  simp only [runWord_of_ok h, hr, andThen]

/-! ## Bus writes by the components that claim them (20_memory.md R71) -/

theorem busWrite_of_none {m a : Option Instr} {s : State} (h : s.active = .none) :
    busWrite m a s = .refused .notInitialised := whenReady_of_none _ _ h

theorem busWrite_unclaimed {s : State} (h : s.active ≠ .none) : busWrite none none s = .next s.clearReport :=
  whenReady_of_ne _ _ h

theorem busWrite_mapper {i : Instr} {s t : State} (hi : i.isBusWrite = true) (h : exec i s = .next t) :
    busWrite (some i) none s = .next t := by
  obtain ⟨hn, h'⟩ := (exec_busWrite_next_iff hi s t).mp h
  simp only [busWrite, whenReady_of_ne _ _ hn, execOption, h', andThen]

theorem busWrite_audio {j : Instr} {s t : State} (hj : j.isBusWrite = true) (h : exec j s = .next t) :
    busWrite none (some j) s = .next t := by
  obtain ⟨hn, h'⟩ := (exec_busWrite_next_iff hj s t).mp h
  simp only [busWrite, whenReady_of_ne _ _ hn, execOption, h', andThen]

/-- The mapper first and then the audio module. -/
theorem busWrite_both {i j : Instr} {s t u : State} (hi : i.isBusWrite = true) (h : exec i s = .next t)
    (hu : exec j t = .next u) : busWrite (some i) (some j) s = .next u := by
  obtain ⟨hn, h'⟩ := (exec_busWrite_next_iff hi s t).mp h
  simp only [busWrite, whenReady_of_ne _ _ hn, execOption, h', andThen, hu]

/-- Settles O50: a step is `runWord` of the word on the state without it, and each clause is the equation of `runWord` for
that shape of the decoded word. -/
theorem stepRunsDecodedWord : Obligations.StepRunsDecodedWord := by
  rintro s s' w rest hin hs'
  obtain rfl : s' = takeInput rest s := hs'
  rw [step_transaction hin, ← takeInput_selection rest s]
  refine ⟨?undecoded, ?single, ?beforeInit, ?unclaimed, ?oneClaims, ?bothClaim⟩
  case undecoded => exact fun e he => ⟨_, runWord_of_error he⟩
  case single => exact fun i hi => ⟨fun t ht => runWord_next hi ht, fun r hr => runWord_refused hi hr⟩
  case beforeInit => exact fun m a hd hn => runWord_refused hd (busWrite_of_none hn)
  case unclaimed => exact fun hd hn => runWord_next hd (busWrite_unclaimed hn)
  case oneClaims =>
    rintro i t (hd | hd) ht
    · exact runWord_next hd (busWrite_mapper (decode_mapper_isBusWrite hd) ht)
    · exact runWord_next hd (busWrite_audio (decode_audio_isBusWrite hd) ht)
  case bothClaim =>
    exact fun i j t u hd ht hu => runWord_next hd (busWrite_both (decode_mapper_isBusWrite hd) ht hu)

end Sys2Proof.Machine
end

section

/-! PROOFS. What each transaction may write, said once for every instruction, and the position (10_state.md R24, R28, R33). -/

namespace Sys2Proof.Machine

/-! ## The frame of a bus write -/

/-- `t` is `s` with a clear report, up to what a bus write other than a port-10 write may change: bank, mirroring and audio
registers, irq_latch and the view. The counter, its enable and the latches of 41_mmc2_mmc4.md are not among them. -/
def QuietWrite (s t : State) : Prop :=
  t = { s.clearReport with
    bandai := { t.bandai with irqCounter := s.bandai.irqCounter, irqEnable := s.bandai.irqEnable }
    mmc := { t.mmc with latch0 := s.mmc.latch0, latch1 := s.mmc.latch1 }
    sunsoft := t.sunsoft, view := t.view, sq0 := t.sq0, sq1 := t.sq1, da := t.da, saw := t.saw }

theorem QuietWrite.of_onMapper {ms : List Active} {f : State → State} {s t : State}
    (h : onMapper ms s f = .next t) (hf : QuietWrite s (f s.clearReport)) : QuietWrite s t := by
  obtain ⟨-, rfl | ⟨-, rfl⟩⟩ := onMapper_inv h
  · rfl
  · exact hf

theorem QuietWrite.of_onAudio {o : AudioOption} {f : State → State} {s t : State}
    (h : onAudio o s f = .next t) (hf : QuietWrite s (f s.clearReport)) : QuietWrite s t := by
  obtain ⟨-, rfl | ⟨-, rfl⟩⟩ := onAudio_inv h
  · rfl
  · exact hf

/-- An MMC CHR window that pushes its half only while the latch selects it (41_mmc2_mmc4.md R172 to R175). -/
theorem QuietWrite.of_pushHalf_ite {c : Prop} [Decidable c] {half : Bool} {s u : State} (hu : QuietWrite s u) :
    QuietWrite s (if c then pushHalf half u else u) := by
  split
  · unfold QuietWrite at *
    rw [hu]
    rfl
  · exact hu

/-- Every bus write but the one to port 10 is quiet (10_state.md R28, 43_irq.md R247). -/
theorem exec_quietWrite {i : Instr} {s t : State} (hi : i.isBusWrite = true) (hq : ∀ a v, i ≠ .bandaiIrqctl a v)
    (h : exec i s = .next t) : QuietWrite s t := by
  cases i
  case ppuLatch | scanlineStart | predict | reset | renderLine | sample | save | load | init | reservedA | reservedB
      | reservedC | reservedD | reservedE | reservedF => simp [Instr.isBusWrite] at hi
  case bandaiIrqctl a v => exact absurd rfl (hq a v)
  case mmcChrfd0 | mmcChrfe0 | mmcChrfd1 | mmcChrfe1 =>
    exact .of_onMapper h (.of_pushHalf_ite rfl)
  case sq0R0 | sq0R1 | sq0R2 | sq0R3 | sq1R0 | sq1R1 | sq1R2 | sq1R3 | sqDa | sqEnable | sawR0 | sawR1 | sawR2
      | sawR3 =>
    simp only [exec] at h
    exact .of_onAudio h rfl
  all_goals exact .of_onMapper h rfl

/-! ## What each transaction may write -/

/-- From `s` to `t` only what 10_state.md R28 and R33, 20_memory.md R78 and 60_exceptions.md R383 let `i` write has changed. -/
structure WritesOnlyItsOwn (i : Instr) (s t : State) : Prop where
  args : t.args = s.args
  prgRom : t.prgRom = s.prgRom
  chrRom : t.chrRom = s.chrRom
  ciram : t.ciram = s.ciram
  pos : t.pos = s.pos
  inputs : t.inputs = s.inputs
  config : i.isInit = false → t.cart = s.cart ∧ t.active = s.active
  line : i.isRender = false → t.line = s.line
  latches : i.mayMoveLatch = false → t.mmc.latch0 = s.mmc.latch0 ∧ t.mmc.latch1 = s.mmc.latch1
  counter : i.isCommit = false → ¬i.Rearms →
    t.bandai.irqCounter = s.bandai.irqCounter ∧ t.bandai.irqEnable = s.bandai.irqEnable
  edge : t.out.irqEdge = true → i.isCommit = true ∧ s.active = .bandai

theorem QuietWrite.writesOnlyItsOwn {s t : State} (i : Instr) (h : QuietWrite s t) : WritesOnlyItsOwn i s t := by
  rw [h]
  constructor <;> simp

theorem writesOnlyItsOwn_bandaiIrqctl {s t : State} (a : Addr) (v : Byte) (h : exec (.bandaiIrqctl a v) s = .next t) :
    WritesOnlyItsOwn (.bandaiIrqctl a v) s t := by
  obtain ⟨-, rfl | ⟨-, rfl⟩⟩ := exec_bandaiIrqctl_inv a v h <;>
    constructor <;> simp [bandaiIrqctl, Instr.Rearms]

theorem writesOnlyItsOwn_ppuLatch {s t : State} (p : PpuAddr) (h : exec (.ppuLatch p) s = .next t) :
    WritesOnlyItsOwn (.ppuLatch p) s t := by
  obtain ⟨-, rfl⟩ := exec_ppuLatch_inv p h
  rw [latchCheck_frame]
  constructor <;> simp [Instr.mayMoveLatch]

theorem writesOnlyItsOwn_scanlineStart {s t : State} (l : BitVec 9) (h : exec (.scanlineStart l) s = .next t) :
    WritesOnlyItsOwn (.scanlineStart l) s t := by
  obtain ⟨-, ⟨-, rfl⟩ | ⟨hb, rfl⟩⟩ := exec_scanlineStart_inv l h
  · constructor <;> simp
  · rw [commit_frame]
    constructor <;> simp [Instr.isCommit, hb]

theorem writesOnlyItsOwn_predict {s t : State} (l : BitVec 9) (h : exec (.predict l) s = .next t) :
    WritesOnlyItsOwn (.predict l) s t := by
  obtain ⟨-, rfl⟩ := exec_predict_inv l h
  constructor <;> simp

theorem writesOnlyItsOwn_reset {s t : State} (h : exec .reset s = .next t) : WritesOnlyItsOwn .reset s t := by
  obtain ⟨-, rfl⟩ := exec_reset_inv h
  rw [resetBlock_frame]
  constructor <;> simp [Instr.mayMoveLatch, Instr.Rearms]

theorem writesOnlyItsOwn_renderLine {s t : State} (v : BitVec 15) (fineX : BitVec 3)
    (bgSel leftClip bgEnabled widthOk : Bool)
    (h : exec (.renderLine v fineX bgSel leftClip bgEnabled widthOk) s = .next t) :
    WritesOnlyItsOwn (.renderLine v fineX bgSel leftClip bgEnabled widthOk) s t := by
  obtain ⟨-, rfl⟩ := exec_renderLine_inv v fineX bgSel leftClip bgEnabled widthOk h
  rw [renderLine_frame v fineX bgSel leftClip bgEnabled widthOk s.clearReport]
  constructor <;> simp [Instr.mayMoveLatch, Instr.isRender]

/-- SAMPLE reports its answer and raises no edge (45_audio.md R320). -/
@[simp] theorem sampleChip_irqEdge (s : State) : (sampleChip s).out.irqEdge = s.out.irqEdge := by
  unfold sampleChip
  cases s.cart.audioOption <;> rfl

theorem writesOnlyItsOwn_sample {s t : State} (h : exec .sample s = .next t) : WritesOnlyItsOwn .sample s t := by
  obtain ⟨-, rfl⟩ := exec_sample_inv h
  rw [sampleChip_frame]
  constructor <;> simp

theorem writesOnlyItsOwn_save {s t : State} (h : exec .save s = .next t) : WritesOnlyItsOwn .save s t := by
  obtain ⟨-, rfl⟩ := exec_save_inv h
  constructor <;> simp [saveBlock]

theorem writesOnlyItsOwn_load {s t : State} (h : exec .load s = .next t) : WritesOnlyItsOwn .load s t := by
  obtain ⟨-, h⟩ := exec_load_inv h
  rw [loadBlock_frame _ _ h]
  constructor <;> simp [Instr.mayMoveLatch, Instr.Rearms]

theorem writesOnlyItsOwn_init {s t : State} (id prg chr : Byte) (mirror audio : BitVec 2)
    (h : exec (.init id prg chr mirror audio) s = .next t) :
    WritesOnlyItsOwn (.init id prg chr mirror audio) s t := by
  obtain ⟨o, m, -, -, ⟨-, rfl⟩ | ⟨r, -, -, rfl⟩⟩ := exec_init_inv id prg chr mirror audio h <;>
    constructor <;> simp [claim, Instr.mayMoveLatch, Instr.Rearms, Instr.isInit]

/-- Every transaction that answers a next state writes only its own. -/
theorem exec_writesOnlyItsOwn {i : Instr} {s t : State} (h : exec i s = .next t) : WritesOnlyItsOwn i s t := by
  cases i
  case bandaiIrqctl a v => exact writesOnlyItsOwn_bandaiIrqctl a v h
  case ppuLatch p => exact writesOnlyItsOwn_ppuLatch p h
  case scanlineStart line => exact writesOnlyItsOwn_scanlineStart line h
  case predict line => exact writesOnlyItsOwn_predict line h
  case reset => exact writesOnlyItsOwn_reset h
  case renderLine v fineX bgSel leftClip bgEnabled widthOk =>
    exact writesOnlyItsOwn_renderLine v fineX bgSel leftClip bgEnabled widthOk h
  case sample => exact writesOnlyItsOwn_sample h
  case save => exact writesOnlyItsOwn_save h
  case load => exact writesOnlyItsOwn_load h
  case init id prg chr mirror audio => exact writesOnlyItsOwn_init id prg chr mirror audio h
  case reservedA | reservedB | reservedC | reservedD | reservedE | reservedF =>
    exact absurd h (exec_reserved_not_next _ (by simp [Instr.isReserved]))
  all_goals
    exact (exec_quietWrite (by simp [Instr.isBusWrite]) (by simp) h).writesOnlyItsOwn _

/-- Settles O53: the fields of `WritesOnlyItsOwn`, which every transaction meets. -/
theorem whoWritesWhat : Obligations.WhoWritesWhat := by
  intro s t i h
  have w := exec_writesOnlyItsOwn h
  exact ⟨w.args, w.prgRom, w.chrRom, w.ciram, w.config, w.line, w.latches, w.counter, w.edge⟩

/-! ## The position (10_state.md R24) -/

/-- A transaction word is run with the position and the queue of inputs kept; only `State.advance` moves the position. -/
def SamePlace (s t : State) : Prop := t.pos = s.pos ∧ t.inputs = s.inputs

theorem execOption_samePlace {i : Option Instr} {s t : State} (h : execOption i s = .next t) : SamePlace s t := by
  cases i with
  | none => cases h; exact ⟨rfl, rfl⟩
  | some i => exact ⟨(exec_writesOnlyItsOwn h).pos, (exec_writesOnlyItsOwn h).inputs⟩

theorem busWrite_samePlace {m a : Option Instr} {s t : State} (h : busWrite m a s = .next t) : SamePlace s t := by
  obtain ⟨-, h⟩ := (whenReady_next _ _ _).mp h
  obtain ⟨u, hu, ht⟩ := (andThen_next _ _ _).mp h
  obtain ⟨hup, hui⟩ := execOption_samePlace hu
  obtain ⟨htp, hti⟩ := execOption_samePlace ht
  exact ⟨htp.trans hup, hti.trans hui⟩

theorem execDecoded_samePlace {d : Decoded} {s t : State} (h : execDecoded d s = .next t) : SamePlace s t := by
  cases d with
  | one i => exact execOption_samePlace (i := some i) h
  | write m a => exact busWrite_samePlace h

/-- A word that answers a next state has decoded, and its meaning's state is advanced. -/
theorem runWord_next_inv {w : TxWord} {s t : State} (h : runWord w s = .next t) :
    ∃ d u, execDecoded d s = .next u ∧ t = u.advance := by
  cases hd : decode s.selection w with
  | error e => rw [runWord_of_error hd] at h; cases h
  | ok d =>
    rw [runWord_of_ok hd] at h
    obtain ⟨u, hu, ht⟩ := (andThen_next _ _ _).mp h
    exact ⟨d, u, hu, (Host.Outcome.next.inj ht).symm⟩

/-- Settles O52: the word's meaning keeps the position and the rest of the queue, and `runWord` then advances once. -/
theorem positionAdvances : Obligations.PositionAdvances := by
  refine ⟨fun s t w rest hin h => ?_, fun s hin => ?_⟩
  · rw [step_transaction hin] at h
    obtain ⟨d, u, hu, rfl⟩ := runWord_next_inv h
    obtain ⟨hpos, hinputs⟩ := execDecoded_samePlace hu
    exact ⟨congrArg (· + 1) hpos, hinputs⟩
  · simp only [step, hin]

end Sys2Proof.Machine
end

section

/-! PROOFS. The pages that a pushed view selects (10_state.md R22, 20_memory.md R72, R88). -/

namespace Sys2Proof.Machine

/-- Every page that the view selects exists on the cartridge, and $E000 to $FFFF shows the last 8 KiB PRG page. -/
structure SelectsPages (c : Cartridge) (b : BusView) : Prop where
  prg : ∀ k : Fin 4, b.prgSlot[k.val] < c.prg8
  last : b.prgSlot[3] = c.prg8 - 1
  chr : ∀ k : Fin 8, b.chrSlot[k.val] < c.chr1
  nt : ∀ (k : Fin 4) (p : Nat), b.ntSrc[k.val] = .chr p → p < c.chr1

section
variable {c : Cartridge}

theorem prgLow16_lt (h : 0 < c.prg16) (v : Byte) (k : Fin 4) : (prgLow16 c v)[k.val] < c.prg8 := by
  have hp := maskPage_lt h v
  simp only [Cartridge.prg16] at h hp
  fin_cases k <;> simp [prgLow16, Cartridge.prg16, Cartridge.prg8] <;> omega

theorem chrHalves_lt {q0 q1 : Nat} (h0 : q0 < c.chr4) (h1 : q1 < c.chr4) (k : Fin 8) :
    (chrHalves q0 q1)[k.val] < c.chr1 := by
  simp only [Cartridge.chr4] at h0 h1
  fin_cases k <;> simp [chrHalves, Cartridge.chr1] <;> omega

theorem mmcChrSlots_lt (h : 0 < c.chr4) (r : MmcRegs) (k : Fin 8) : (mmcChrSlots c r)[k.val] < c.chr1 :=
  chrHalves_lt (maskPage_lt h _) (maskPage_lt h _) k

theorem chrPair_lt (h : 0 < c.chr2) (v : Byte) (j : Fin 2) : chrPair c v j.val < c.chr1 := by
  have hq := maskPage_lt h v
  simp only [Cartridge.chr2] at hq
  simp only [chrPair, Cartridge.chr1, Cartridge.chr2]
  omega

/-- SetMirroring selects halves of CIRAM only (10_state.md R32). -/
theorem mirrorTable_ne_chr (m : MirrorMode) (k : Fin 4) (p : Nat) : (mirrorTable m)[k.val] ≠ .chr p := by
  simp [mirrorTable_eq, ciramTables]

theorem sunsoftNts_lt (h : PowerOfTwo c.chrPages.toNat) (r : SunsoftRegs) (k : Fin 4) (p : Nat)
    (hp : (sunsoftNts c r)[k.val] = .chr p) : p < c.chr1 := by
  rw [sunsoftNts_eq c r h] at hp
  simp only [sunsoftTables, Vector.getElem_ofFn] at hp
  split at hp
  · cases hp
    exact Nat.mod_lt _ h.eight.pos
  · cases hp

/-! ## The view of each variant (40 R140, 41 R185, 42 R220) -/

theorem selectsPages_bandaiView (hp : 0 < c.prg16) (hc : 0 < c.chr1) (r : BandaiRegs) :
    SelectsPages c (bandaiView c r) where
  prg := prgLow16_lt hp r.prg
  last := rfl
  chr k := by simpa [bandaiView] using maskPage_lt hc _
  nt k p h := absurd h (mirrorTable_ne_chr _ k p)

theorem selectsPages_mmc2View (hp : 0 < c.prg8) (hc : 0 < c.chr4) (r : MmcRegs) : SelectsPages c (mmc2View c r) where
  prg k := by
    have hm := maskPage_lt hp r.prg
    fin_cases k <;> simp [mmc2View] <;> omega
  last := rfl
  chr := mmcChrSlots_lt hc r
  nt k p h := absurd h (mirrorTable_ne_chr _ k p)

theorem selectsPages_mmc4View (hp : 0 < c.prg16) (hc : 0 < c.chr4) (r : MmcRegs) : SelectsPages c (mmc4View c r) where
  prg := prgLow16_lt hp r.prg
  last := rfl
  chr := mmcChrSlots_lt hc r
  nt k p h := absurd h (mirrorTable_ne_chr _ k p)

theorem selectsPages_sunsoftView (hp : 0 < c.prg16) (hc : PowerOfTwo c.chrPages.toNat) (r : SunsoftRegs) :
    SelectsPages c (sunsoftView c r) where
  prg := prgLow16_lt hp r.prg
  last := rfl
  chr k := by
    have hq (v : Byte) (j : Fin 2) : chrPair c v j.val < c.chr1 := chrPair_lt hc.four.pos v j
    fin_cases k
    exacts [hq _ 0, hq _ 1, hq _ 0, hq _ 1, hq _ 0, hq _ 1, hq _ 0, hq _ 1]
  nt := sunsoftNts_lt hc r

end

/-- A claimed cartridge's registers select only pages that it has (10_state.md R22). -/
theorem selectsPages_viewOf {s : State} (hn : s.active ≠ .none) (hc : CartOk s) : SelectsPages s.cart (viewOf s) := by
  obtain ⟨hprg, hchr, -, -⟩ := hc hn
  cases ha : s.active <;> simp only [viewOf, ha]
  case none => exact absurd ha hn
  case bandai => exact selectsPages_bandaiView hprg.pos hchr.eight.pos _
  case mmc2 => exact selectsPages_mmc2View hprg.double.pos hchr.double.pos _
  case mmc4 => exact selectsPages_mmc4View hprg.pos hchr.double.pos _
  case sunsoft => exact selectsPages_sunsoftView hprg.pos hchr _

/-- $E000 to $FFFF is the last PRG window (20_memory.md R72). -/
theorem prgWindow_eq_three {a : Addr} (h : 0xE000 ≤ a.toNat) : prgWindow a = 3#2 := by
  have := a.isLt
  apply BitVec.eq_of_toNat_eq
  simp only [prgWindow, BitVec.extractLsb'_toNat, Nat.shiftRight_eq_div_pow, BitVec.toNat_ofNat]
  omega

theorem prgOffset_toNat (a : Addr) : (prgOffset a).toNat = a.toNat % 8192 := by
  simp [prgOffset, BitVec.extractLsb'_toNat]

theorem cpuRead_last {s : State} {a : Addr} (h : 0xE000 ≤ a.toNat) :
    cpuRead s a = some (s.prgRom.read (s.view.prgSlot[3] * 8192 + a.toNat % 8192)) := by
  have h8 : 0x8000 ≤ a.toNat := by omega
  simp [cpuRead, h8, prgRead, prgWindow_eq_three h, prgOffset_toNat]

/-- Settles O55: the view is the registers' one, whose pages are masked by the counts, and its slot 3 is the last page. -/
theorem pagesExist : Obligations.PagesExist := by
  intro s hn hc hv
  have hs : SelectsPages s.cart s.view := hv hn ▸ selectsPages_viewOf hn hc
  refine ⟨hs.prg, hs.chr, hs.nt, fun a ha => ?_⟩
  rw [cpuRead_last ha, hs.last]
  rfl

end Sys2Proof.Machine
end

section

/-! PROOFS. The inputs of the outside world: the reads through the bus view and the CIRAM write (20_memory.md R72 to R77). -/

namespace Sys2Proof.Machine

/-! ## One step with an input that is no transaction next (00_scope.md R9) -/

theorem step_cpuRead {s : State} {a : Addr} {rest : List Input} (h : s.inputs = .cpuRead a :: rest) :
    step s = .next { s with inputs := rest, out := { cpuRead := cpuRead s a } } := by
  simp only [step, h]
  rfl

theorem step_ciramWrite {s : State} {off : BitVec 11} {v : Byte} {rest : List Input}
    (h : s.inputs = .ciramWrite off v :: rest) :
    step s = .next { s with inputs := rest, out := {}, ciram := s.ciram.write off.toNat v } := by
  simp only [step, h]
  rfl

theorem step_saveStream {s : State} {bytes : List Byte} {rest : List Input} (h : s.inputs = .saveStream bytes :: rest) :
    step s = .next { s with inputs := rest, out := {}, stream := bytes } := by
  simp only [step, h]
  rfl

/-! ## The address fields in arithmetic -/

/-- A[14:13] is the 8 KiB window counted from $8000 (20_memory.md R72). -/
theorem prgWindow_toNat {a : Addr} (h : 0x8000 ≤ a.toNat) : (prgWindow a).toNat = (a.toNat - 0x8000) / 8192 := by
  have := a.isLt
  simp only [prgWindow, BitVec.extractLsb'_toNat, Nat.shiftRight_eq_div_pow]
  omega

theorem ppuBlock_toNat (p : PpuAddr) : (ppuBlock p).toNat = p.toNat / 1024 % 8 := by
  simp [ppuBlock, BitVec.extractLsb'_toNat, Nat.shiftRight_eq_div_pow]

theorem ppuOffset_toNat (p : PpuAddr) : (ppuOffset p).toNat = p.toNat % 1024 := by
  simp [ppuOffset, BitVec.extractLsb'_toNat]

/-! ## The three reads (20_memory.md R72, R74, R76) -/

theorem cpuRead_of_ge {s : State} {a : Addr} (h : 0x8000 ≤ a.toNat) :
    cpuRead s a = some (s.prgRom.read
      (s.view.prgSlot[(a.toNat - 0x8000) / 8192]'(by omega) * 8192 + a.toNat % 8192)) := by
  simp only [cpuRead, h, if_true, prgRead, prgWindow_toNat h, prgOffset_toNat]

theorem cpuRead_of_lt {s : State} {a : Addr} (h : a.toNat < 0x8000) : cpuRead s a = none :=
  if_neg (by omega)

theorem patRead_eq (s : State) (p : PpuAddr) :
    patRead s p = s.chrRom.read (s.view.chrSlot[p.toNat / 1024 % 8]'(by omega) * 1024 + p.toNat % 1024) := by
  simp only [patRead, ppuBlock_toNat, ppuOffset_toNat]

theorem ntRead_ciram {s : State} {t : BitVec 2} {k : Fin 2} (h : s.view.ntSrc[t.toNat] = .ciram k) (off : BitVec 10) :
    ntRead s t off = s.ciram.read (k.val * 1024 + off.toNat) := by
  simp only [ntRead, h]

theorem ntRead_chr {s : State} {t : BitVec 2} {p : Nat} (h : s.view.ntSrc[t.toNat] = .chr p) (off : BitVec 10) :
    ntRead s t off = s.chrRom.read (p * 1024 + off.toNat) := by
  simp only [ntRead, h]

/-- Settles O56: each read is one lookup at the page that the view selects, and a CPU read's step changes the report only. -/
theorem readsThroughView : Obligations.ReadsThroughView := by
  refine ⟨fun s a rest hin => ⟨fun ha => ?_, fun ha => ?_⟩, fun s p _ => patRead_eq s p,
    fun s t off => ⟨fun k hk => ntRead_ciram hk off, fun p hp => ntRead_chr hp off⟩⟩
  · rw [step_cpuRead hin, cpuRead_of_ge ha]
  · rw [step_cpuRead hin, cpuRead_of_lt ha]

/-- Settles O57: the step writes one byte of CIRAM, which a read sees at its own address only. -/
theorem ciramWrites : Obligations.CiramWrites := by
  intro s off v rest hin
  exact ⟨_, step_ciramWrite hin, rfl, Memory.read_write_self _ _ _, fun a ha => Memory.read_write_of_ne _ _ _ _ ha⟩

end Sys2Proof.Machine
end

section

/-! PROOFS. Bus writes that no component claims (20_memory.md R71, 30_encoding.md R109, R111). -/

namespace Sys2Proof.Machine

theorem windowSel_toNat (a : Addr) : (windowSel a).toNat = a.toNat / 4096 := by
  have := a.isLt
  simp only [windowSel, BitVec.extractLsb'_toNat, Nat.shiftRight_eq_div_pow]
  omega

theorem bandaiPort_eq_none {a : Addr} (h : a.toNat < 0x6000) (v : Byte) : bandaiPort a v = none := if_pos h

/-- Below $A000 the MMC variants decode nothing, or the windows they ignore (41_mmc2_mmc4.md R170, R177). -/
theorem mmcPort_of_lt {a : Addr} (h : a.toNat < 0xA000) (prg : Addr → Byte → Instr) (v : Byte) :
    mmcPort prg a v = none ∨ mmcPort prg a v = some (.mmcUnclaimed a v) := by
  unfold mmcPort
  rw [windowSel_toNat]
  split
  case h_1 | h_2 => exact .inr rfl
  case h_9 => exact .inl rfl
  all_goals omega

theorem sunsoftPort_eq_none {a : Addr} (h : a.toNat < 0x8000) (v : Byte) : sunsoftPort a v = none := by
  unfold sunsoftPort
  rw [windowSel_toNat]
  split
  case h_9 => rfl
  all_goals omega

theorem squarePort_eq_none {a : Addr} (h : a.toNat < 0x5000 ∨ 0x5007 < a.toNat) (hda : a.toNat ≠ 0x5011)
    (hen : a.toNat ≠ 0x5015) (v : Byte) : squarePort a v = none := by
  unfold squarePort
  split
  case h_11 => rfl
  all_goals omega

theorem sawPort_eq_none {a : Addr} (h : a.toNat < 0xB000 ∨ 0xBFFF < a.toNat) (v : Byte) : sawPort a v = none := by
  have hw : a.toNat / 4096 ≠ 0xB := by omega
  simp [sawPort, inWindow, windowSel_toNat, hw]

/-- MMCx.UNCLAIMED only clears the report, whatever variant is active (41_mmc2_mmc4.md R177). -/
theorem exec_mmcUnclaimed {s : State} (hn : s.active ≠ .none) (a : Addr) (v : Byte) :
    exec (.mmcUnclaimed a v) s = .next s.clearReport :=
  (onMapper_next _ _ _ _).mpr ⟨hn, (ite_self _).symm⟩

/-- Outside its windows a variant decodes nothing, or on MMC2 and MMC4 the ignored windows $8 and $9. -/
theorem mapperPort_outside {m : Active} {a : Addr} (hb : m = .bandai → a.toNat < 0x6000)
    (hm : m = .mmc2 ∨ m = .mmc4 → a.toNat < 0xA000) (hs : m = .sunsoft → a.toNat < 0x8000) (v : Byte) :
    mapperPort m a v = none ∨ mapperPort m a v = some (.mmcUnclaimed a v) := by
  cases m with
  | none => exact .inl rfl
  | bandai => exact .inl (bandaiPort_eq_none (hb rfl) v)
  | mmc2 => exact mmcPort_of_lt (hm (.inl rfl)) _ v
  | mmc4 => exact mmcPort_of_lt (hm (.inr rfl)) _ v
  | sunsoft => exact .inl (sunsoftPort_eq_none (hs rfl) v)

theorem audioPort_outside {o : AudioOption} {a : Addr}
    (hq : o = .square → (a.toNat < 0x5000 ∨ 0x5007 < a.toNat) ∧ a.toNat ≠ 0x5011 ∧ a.toNat ≠ 0x5015)
    (hw : o = .saw → a.toNat < 0xB000 ∨ 0xBFFF < a.toNat) (v : Byte) : audioPort o a v = none := by
  cases o with
  | none => rfl
  | square =>
    obtain ⟨h, hda, hen⟩ := hq rfl
    exact squarePort_eq_none h hda hen v
  | saw => exact sawPort_eq_none (hw rfl) v

/-- Settles O51: neither component's decoding has an effect, so only the report and the position change. -/
theorem unclaimedWrites : Obligations.UnclaimedWrites := by
  intro s a v rest hn hin hb hm hs hq hw
  have hd : decode (takeInput rest s).selection (wrWord a v) =
      .ok (.write (mapperPort s.active a v) (audioPort s.cart.audioOption a v)) := decode_wrWord _ a v
  rw [audioPort_outside hq hw] at hd
  rw [step_transaction hin]
  obtain h | h := mapperPort_outside hb hm hs v
  · rw [h] at hd
    exact runWord_next hd (busWrite_unclaimed hn)
  · rw [h] at hd
    exact runWord_next hd (busWrite_mapper (decode_mapper_isBusWrite hd)
      (exec_mmcUnclaimed (s := takeInput rest s) hn a v))

end Sys2Proof.Machine
end

section

/-! PROOFS. Bus writes and PPU_LATCH repeated (20_memory.md R85). -/

namespace Sys2Proof.Machine

/-! ## Effects that leave the state of one when run twice -/

/-- Running `f` again changes nothing, and `f` leaves what decides who is addressed and the report. -/
structure Repeatable (f : State → State) : Prop where
  active : ∀ s, (f s).active = s.active
  cart : ∀ s, (f s).cart = s.cart
  out : ∀ s, (f s).out = s.out
  twice : ∀ s, f (f s) = f s

/-- A state with an empty report is not changed by clearing it. -/
theorem clearReport_of_out {s : State} (h : s.out = {}) : s.clearReport = s := by
  rw [State.clearReport, ← h]

theorem Repeatable.clearReport {f : State → State} (hf : Repeatable f) (s : State) :
    (f s.clearReport).clearReport = f s.clearReport := clearReport_of_out (hf.out _)

theorem Repeatable.ready {f : State → State} (hf : Repeatable f) {s t : State} (h : ready s f = .next t) :
    ready t f = .next t := by
  obtain ⟨hn, rfl⟩ := (ready_next _ _ _).mp h
  exact (ready_next _ _ _).mpr ⟨(hf.active _).trans_ne hn, by rw [hf.clearReport, hf.twice]⟩

/-- An effect that runs only where its component is present. -/
theorem Repeatable.ite {f : State → State} (hf : Repeatable f) (p : State → Prop) [DecidablePred p]
    (hp : ∀ s, p (f s) ↔ p s) : Repeatable fun s => if p s then f s else s where
  active s := by split <;> simp [hf.active]
  cart s := by split <;> simp [hf.cart]
  out s := by split <;> simp [hf.out]
  twice s := by by_cases h : p s <;> simp [h, hp, hf.twice]

theorem Repeatable.onMapper {f : State → State} (hf : Repeatable f) {ms : List Active} {s t : State}
    (h : onMapper ms s f = .next t) : onMapper ms t f = .next t :=
  (hf.ite (·.active ∈ ms) fun s => by rw [hf.active]).ready h

theorem Repeatable.onAudio {f : State → State} (hf : Repeatable f) {o : AudioOption} {s t : State}
    (h : onAudio o s f = .next t) : onAudio o t f = .next t :=
  (hf.ite (·.cart.audioOption = o) fun s => by rw [hf.cart]).ready h

theorem repeatable_id : Repeatable id := ⟨fun _ => rfl, fun _ => rfl, fun _ => rfl, fun _ => rfl⟩

/-! ## The pushes to the view -/

theorem selectChr1_selectChr1 (block : Fin 8) (page : Nat) (b : BusView) :
    selectChr1 block page (selectChr1 block page b) = selectChr1 block page b := by
  simp [selectChr1]

theorem selectPrg8_selectPrg8 (slot : Fin 4) (page : Nat) (b : BusView) :
    selectPrg8 slot page (selectPrg8 slot page b) = selectPrg8 slot page b := by
  simp [selectPrg8]

theorem selectPrg16_selectPrg16 (page : Nat) (b : BusView) :
    selectPrg16 0 page (selectPrg16 0 page b) = selectPrg16 0 page b := by
  simp only [selectPrg16_low_eq, BusView.mk.injEq, and_true]
  refine vector_ext_fin fun i => ?_
  simp only [withLow16, Vector.getElem_ofFn]
  split <;> rfl

theorem selectChr2_selectChr2 (w : Fin 4) (q : Nat) (b : BusView) :
    selectChr2 w q (selectChr2 w q b) = selectChr2 w q b := by
  simp only [selectChr2_eq, BusView.mk.injEq, and_true, true_and]
  refine vector_ext_fin fun i => ?_
  simp only [withChrPair, Vector.getElem_ofFn]
  split <;> rfl

theorem pushHalf_pushHalf (h : Bool) (s : State) : pushHalf h (pushHalf h s) = pushHalf h s := by
  simp only [pushHalf, pushChrHalf_eq, withChrHalf_idem]

/-! ## The effects of the bus writes -/

theorem repeatable_bandaiChr (n : Fin 8) (v : Byte) : Repeatable (bandaiChr n v) where
  active _ := rfl
  cart _ := rfl
  out _ := rfl
  twice s := by simp [bandaiChr, selectChr1_selectChr1]

theorem repeatable_bandaiPrg (v : Byte) : Repeatable (bandaiPrg v) where
  active _ := rfl
  cart _ := rfl
  out _ := rfl
  twice s := by simp [bandaiPrg, selectPrg16_selectPrg16]

theorem repeatable_bandaiMirror (v : Byte) : Repeatable (bandaiMirror v) where
  active _ := rfl
  cart _ := rfl
  out _ := rfl
  twice s := by simp [bandaiMirror, setMirroring]

theorem repeatable_bandaiIrqctl (v : Byte) : Repeatable (bandaiIrqctl v) where
  active _ := rfl
  cart _ := rfl
  out _ := rfl
  twice _ := rfl

theorem highByte_append (hi lo : Byte) : (hi ++ lo : BitVec 16).extractLsb' 8 8 = hi :=
  BitVec.extractLsb'_append_eq_left

theorem lowByte_append (hi lo : Byte) : (hi ++ lo : BitVec 16).extractLsb' 0 8 = lo :=
  BitVec.extractLsb'_append_eq_right

theorem repeatable_bandaiLatchlo (v : Byte) : Repeatable (bandaiLatchlo v) where
  active _ := rfl
  cart _ := rfl
  out _ := rfl
  twice s := by simp only [bandaiLatchlo, highByte_append]

theorem repeatable_bandaiLatchhi (v : Byte) : Repeatable (bandaiLatchhi v) where
  active _ := rfl
  cart _ := rfl
  out _ := rfl
  twice s := by simp only [bandaiLatchhi, lowByte_append]

theorem repeatable_mmc2Prg8 (v : Byte) : Repeatable (mmc2Prg8 v) where
  active _ := rfl
  cart _ := rfl
  out _ := rfl
  twice s := by simp [mmc2Prg8, selectPrg8_selectPrg8]

theorem repeatable_mmc4Prg16 (v : Byte) : Repeatable (mmc4Prg16 v) where
  active _ := rfl
  cart _ := rfl
  out _ := rfl
  twice s := by simp [mmc4Prg16, selectPrg16_selectPrg16]

theorem repeatable_mmcMirror (v : Byte) : Repeatable (mmcMirror v) where
  active _ := rfl
  cart _ := rfl
  out _ := rfl
  twice s := by simp [mmcMirror, setMirroring]

/-- The shape of the four MMC CHR windows: a register stored, then half `h` pushed while its latch `l` holds `tile`
(41_mmc2_mmc4.md R172 to R175). -/
def storeThenPush (h : Bool) (l : MmcRegs → Byte) (tile : Byte) (store : MmcRegs → MmcRegs) (s : State) : State :=
  let t := { s with mmc := store s.mmc }
  if l t.mmc = tile then pushHalf h t else t

theorem repeatable_storeThenPush (h : Bool) (l : MmcRegs → Byte) (tile : Byte) {store : MmcRegs → MmcRegs}
    (hstore : ∀ r, store (store r) = store r) : Repeatable (storeThenPush h l tile store) where
  active s := by simp only [storeThenPush]; split <;> rfl
  cart s := by simp only [storeThenPush]; split <;> rfl
  out s := by simp only [storeThenPush]; split <;> rfl
  twice s := by
    by_cases hl : l (store s.mmc) = tile
    · simp only [storeThenPush, hl, hstore, if_true, pushHalf_mmc]
      exact pushHalf_pushHalf h { s with mmc := store s.mmc }
    · simp only [storeThenPush, hl, hstore, if_false]

/-! `storeThenPush` is each window's effect by definition. -/

theorem repeatable_mmcChrfd0 (v : Byte) : Repeatable (mmcChrfd0 v) :=
  repeatable_storeThenPush false (·.latch0) 0xFD (store := fun r => { r with chrFd0 := v }) fun _ => rfl

theorem repeatable_mmcChrfe0 (v : Byte) : Repeatable (mmcChrfe0 v) :=
  repeatable_storeThenPush false (·.latch0) 0xFE (store := fun r => { r with chrFe0 := v }) fun _ => rfl

theorem repeatable_mmcChrfd1 (v : Byte) : Repeatable (mmcChrfd1 v) :=
  repeatable_storeThenPush true (·.latch1) 0xFD (store := fun r => { r with chrFd1 := v }) fun _ => rfl

theorem repeatable_mmcChrfe1 (v : Byte) : Repeatable (mmcChrfe1 v) :=
  repeatable_storeThenPush true (·.latch1) 0xFE (store := fun r => { r with chrFe1 := v }) fun _ => rfl

theorem repeatable_sunsoftChr (w : Fin 4) (v : Byte) : Repeatable (sunsoftChr w v) where
  active _ := rfl
  cart _ := rfl
  out _ := rfl
  twice s := by simp [sunsoftChr, selectChr2_selectChr2]

theorem repeatable_sunsoftNt (k : Fin 2) (v : Byte) : Repeatable (sunsoftNt k v) where
  active _ := rfl
  cart _ := rfl
  out _ := rfl
  twice s := by simp [sunsoftNt, pushNts, pushNt]

theorem repeatable_sunsoftNtctl (v : Byte) : Repeatable (sunsoftNtctl v) where
  active _ := rfl
  cart _ := rfl
  out _ := rfl
  twice s := by simp [sunsoftNtctl, pushNts, pushNt]

theorem repeatable_sunsoftPrg (v : Byte) : Repeatable (sunsoftPrg v) where
  active _ := rfl
  cart _ := rfl
  out _ := rfl
  twice s := by simp [sunsoftPrg, selectPrg16_selectPrg16]

/-! ## The effects of the audio registers -/

theorem squareWrite_squareWrite (k : Fin 4) (v : Byte) (ch : SquareChannel) :
    squareWrite k v (squareWrite k v ch) = squareWrite k v ch := by
  simp [squareWrite, markSquare, BitVec.or_assoc]

theorem sawWrite_sawWrite (k : Fin 3) (v : Byte) (ch : SawChannel) :
    sawWrite k v (sawWrite k v ch) = sawWrite k v ch := by
  simp [sawWrite, markSaw, BitVec.or_assoc]

/-- SQ.ENABLE keys a channel off at most once (45_audio.md R307). -/
theorem squareEnable_squareEnable (args : ModelArgs) (on : Bool) (ch : SquareChannel) :
    squareEnable args on (squareEnable args on ch) = squareEnable args on ch := by
  cases on
  · cases hk : ch.key <;> simp [squareEnable, squareKeyOff, hk]
  · rfl

theorem repeatable_sq0 {f : SquareChannel → SquareChannel} (hf : ∀ ch, f (f ch) = f ch) :
    Repeatable fun s => { s with sq0 := f s.sq0 } where
  active _ := rfl
  cart _ := rfl
  out _ := rfl
  twice s := by simp [hf]

theorem repeatable_sq1 {f : SquareChannel → SquareChannel} (hf : ∀ ch, f (f ch) = f ch) :
    Repeatable fun s => { s with sq1 := f s.sq1 } where
  active _ := rfl
  cart _ := rfl
  out _ := rfl
  twice s := by simp [hf]

theorem repeatable_saw {f : SawChannel → SawChannel} (hf : ∀ ch, f (f ch) = f ch) :
    Repeatable fun s => { s with saw := f s.saw } where
  active _ := rfl
  cart _ := rfl
  out _ := rfl
  twice s := by simp [hf]

theorem repeatable_sqDa (v : Byte) : Repeatable fun s => { s with da := v } :=
  ⟨fun _ => rfl, fun _ => rfl, fun _ => rfl, fun _ => rfl⟩

theorem repeatable_sqEnable (v : Byte) : Repeatable fun s =>
    { s with sq0 := squareEnable s.args (v.getLsbD 0) s.sq0, sq1 := squareEnable s.args (v.getLsbD 1) s.sq1 } where
  active _ := rfl
  cart _ := rfl
  out _ := rfl
  twice s := by simp [squareEnable_squareEnable]

/-! ## PPU_LATCH (41_mmc2_mmc4.md R180) -/

theorem setLatch_setLatch (h : Bool) (t : Byte) (r : MmcRegs) : setLatch h t (setLatch h t r) = setLatch h t r := by
  cases h <;> rfl

theorem repeatable_latchCheck (p : PpuAddr) : Repeatable (latchCheck p) where
  active s := by rw [latchCheck_frame]
  cart s := by rw [latchCheck_frame]
  out s := by rw [latchCheck_frame]
  twice s := by
    unfold latchCheck
    split
    case isTrue h =>
      simp only [pushHalf_active, pushHalf_mmc, h, if_true, setLatch_setLatch]
      exact pushHalf_pushHalf _ { s with mmc := setLatch (ppuHalf p) (ppuTile p) s.mmc }
    case isFalse => rfl

/-! ## The transactions -/

theorem exec_busWrite_repeated {i : Instr} {s t : State} (hi : i.isBusWrite = true) (h : exec i s = .next t) :
    exec i t = .next t := by
  cases i
  case ppuLatch | scanlineStart | predict | reset | renderLine | sample | save | load | init | reservedA | reservedB
      | reservedC | reservedD | reservedE | reservedF => simp [Instr.isBusWrite] at hi
  case bandaiChr0 | bandaiChr1 | bandaiChr2 | bandaiChr3 | bandaiChr4 | bandaiChr5 | bandaiChr6 | bandaiChr7 =>
    exact (repeatable_bandaiChr _ _).onMapper h
  case bandaiPrg => exact (repeatable_bandaiPrg _).onMapper h
  case bandaiMirror => exact (repeatable_bandaiMirror _).onMapper h
  case bandaiIrqctl => exact (repeatable_bandaiIrqctl _).onMapper h
  case bandaiLatchlo => exact (repeatable_bandaiLatchlo _).onMapper h
  case bandaiLatchhi => exact (repeatable_bandaiLatchhi _).onMapper h
  case bandaiPort13 | bandaiPort14 | bandaiPort15 | mmcUnclaimed => exact repeatable_id.onMapper h
  case mmc2Prg8 => exact (repeatable_mmc2Prg8 _).onMapper h
  case mmc4Prg16 => exact (repeatable_mmc4Prg16 _).onMapper h
  case mmcChrfd0 => exact (repeatable_mmcChrfd0 _).onMapper h
  case mmcChrfe0 => exact (repeatable_mmcChrfe0 _).onMapper h
  case mmcChrfd1 => exact (repeatable_mmcChrfd1 _).onMapper h
  case mmcChrfe1 => exact (repeatable_mmcChrfe1 _).onMapper h
  case mmcMirror => exact (repeatable_mmcMirror _).onMapper h
  case sunsoftChr0 | sunsoftChr1 | sunsoftChr2 | sunsoftChr3 => exact (repeatable_sunsoftChr _ _).onMapper h
  case sunsoftNt0 | sunsoftNt1 => exact (repeatable_sunsoftNt _ _).onMapper h
  case sunsoftNtctl => exact (repeatable_sunsoftNtctl _).onMapper h
  case sunsoftPrg => exact (repeatable_sunsoftPrg _).onMapper h
  case sq0R0 | sq0R1 | sq0R2 | sq0R3 => exact (repeatable_sq0 (squareWrite_squareWrite _ _)).onAudio h
  case sq1R0 | sq1R1 | sq1R2 | sq1R3 => exact (repeatable_sq1 (squareWrite_squareWrite _ _)).onAudio h
  case sqDa => exact (repeatable_sqDa _).onAudio h
  case sqEnable => exact (repeatable_sqEnable _).onAudio h
  case sawR0 | sawR1 | sawR2 => exact (repeatable_saw (sawWrite_sawWrite _ _)).onAudio h
  case sawR3 => exact repeatable_id.onAudio h

/-- Settles O54: every bus write's effect, and PPU_LATCH's, is `Repeatable`. -/
theorem repeatedWrites : Obligations.RepeatedWrites := by
  rintro s t i (hi | ⟨p, rfl⟩) h
  · exact exec_busWrite_repeated hi h
  · exact (repeatable_latchCheck p).ready h

end Sys2Proof.Machine
end

section

/-! PROOFS. LOAD in terms of the stream's bytes: which streams it accepts, and that it loads the state whose payload they are
(20_memory.md R79, R81, 46_lifecycle.md R368, R369, R371). -/

namespace Sys2Proof.Machine

/-! ## Fields that come back from the bytes they are read from -/

theorem ofNat_lowBits {n : Nat} {b : Byte} (h : b.toNat < 2 ^ n) :
    BitVec.ofNat 8 (b.extractLsb' 0 n).toNat = b := by
  apply BitVec.eq_of_toNat_eq
  simp [BitVec.extractLsb'_toNat, Nat.mod_eq_of_lt h]

theorem ofNat_bit0 {b : Byte} (h : b.toNat ≤ 1) : BitVec.ofNat 8 (b.getLsbD 0).toNat = b := by
  apply BitVec.eq_of_toNat_eq
  rw [getLsbD_zero_eq]
  obtain h | h : b.toNat = 0 ∨ b.toNat = 1 := by omega
  all_goals simp [h]

theorem ofNat_modeCode {b : Byte} (h : b.toNat ≤ 3) : BitVec.ofNat 8 (codeOf (modeOf (low2 b))).toNat = b := by
  rw [codeOf_modeOf]
  exact ofNat_lowBits (n := 2) (by omega)

theorem isTrigger_iff (b : Byte) : isTrigger b = true ↔ 0xFD ≤ b.toNat ∧ b.toNat ≤ 0xFE := by
  simp only [isTrigger, Bool.or_eq_true, decide_eq_true_eq]
  bv_omega

/-- The integer at byte `i` is written back as the bytes it was read from. -/
theorem littleEndian_natAt {l : List Byte} {i k : Nat} (h : i + k ≤ l.length) :
    littleEndian k (natAt l i k) = (l.drop i).take k := by
  have hk : ((l.drop i).take k).length = k := by simp; omega
  have := leBytes_fromLe ((l.drop i).take k)
  rwa [hk, leBytes_eq] at this

/-- The same through a 16-bit register. -/
theorem littleEndian_ofNat_natAt {l : List Byte} {i : Nat} (h : i + 2 ≤ l.length) :
    littleEndian 2 (BitVec.ofNat 16 (natAt l i 2)).toNat = (l.drop i).take 2 := by
  rw [BitVec.toNat_ofNat, Nat.mod_eq_of_lt (show natAt l i 2 < 2 ^ 16 from natAt_lt l i 2), littleEndian_natAt h]

/-- The first bytes of a stream, one by one. -/
theorem take_eq_map_byteAt {l : List Byte} {n : Nat} (h : n ≤ l.length) :
    l.take n = (List.range n).map (byteAt l) := by
  refine List.ext_getElem (by simp [h]) fun i h1 _ => ?_
  have hi : i < l.length := by simp at h1; omega
  simp [byteAt, hi]

theorem byteAt_drop (l : List Byte) (n i : Nat) : byteAt (l.drop n) i = byteAt l (n + i) := by
  simp [byteAt]

/-! ## Each payload written back -/

theorem bandaiSaved_of_bytes {l : List Byte} {r : BandaiRegs} (hl : 15 ≤ l.length) (h : bandaiOfBytes l = some r) :
    bandaiSaved r = l.take 15 := by
  simp only [bandaiOfBytes, Option.ite_none_right_eq_some, Option.some.injEq] at h
  obtain ⟨⟨hmirror, henable⟩, rfl⟩ := h
  rw [show l.take 15 = l.take (11 + 2 + 2) from rfl, List.take_add, List.take_add, take_eq_map_byteAt (by omega)]
  simp only [bandaiSaved, littleEndian_ofNat_natAt (show 11 + 2 ≤ l.length by omega),
    littleEndian_ofNat_natAt (show 13 + 2 ≤ l.length by omega), ofNat_modeCode hmirror, ofNat_bit0 henable]
  rfl

theorem mmcSaved_of_bytes {l : List Byte} {r : MmcRegs} (hl : 8 ≤ l.length) (h : mmcOfBytes l = some r) :
    mmcSaved r = l.take 8 := by
  simp only [mmcOfBytes, Option.ite_none_right_eq_some, Option.some.injEq, Bool.and_eq_true, decide_eq_true_eq] at h
  obtain ⟨⟨-, hmirror⟩, rfl⟩ := h
  rw [take_eq_map_byteAt hl]
  simp only [mmcSaved, ofNat_modeCode hmirror]
  rfl

theorem sunsoftSaved_of_bytes {l : List Byte} (hl : 8 ≤ l.length) : sunsoftSaved (sunsoftOfBytes l) = l.take 8 := by
  rw [take_eq_map_byteAt hl]
  rfl

theorem squareSaved_of_bytes {args : ModelArgs} {l : List Byte} {ch : SquareChannel} (hl : 44 ≤ l.length)
    (h : squareOfBytes args l = some ch) : squareSaved ch = l.take 44 := by
  simp only [squareOfBytes, Option.ite_none_right_eq_some, Option.some.injEq] at h
  obtain ⟨⟨hupdate, hkey, henabled, hvol, hduty⟩, rfl⟩ := h
  rw [show l.take 44 = l.take (10 + 2 + 8 + 8 + 8 + 8) from rfl]
  simp only [List.take_add]
  rw [take_eq_map_byteAt (by omega)]
  simp only [squareSaved, littleEndian_ofNat_natAt (show 10 + 2 ≤ l.length by omega),
    littleEndian_natAt (show 12 + 8 ≤ l.length by omega), littleEndian_natAt (show 20 + 8 ≤ l.length by omega),
    littleEndian_natAt (show 28 + 8 ≤ l.length by omega), littleEndian_natAt (show 36 + 8 ≤ l.length by omega),
    ofNat_bit0 hkey, ofNat_bit0 henabled, ofNat_lowBits (n := 4) (Nat.lt_succ_of_le hupdate),
    ofNat_lowBits (n := 4) (Nat.lt_succ_of_le hvol), ofNat_lowBits (n := 3) (Nat.lt_succ_of_le hduty)]
  rfl

theorem sawSaved_of_bytes {args : ModelArgs} {l : List Byte} {ch : SawChannel} (hl : 17 ≤ l.length)
    (h : sawOfBytes args l = some ch) : sawSaved ch = l.take 17 := by
  simp only [sawOfBytes, Option.ite_none_right_eq_some, Option.some.injEq] at h
  obtain ⟨⟨hupdate, hkey, hstep⟩, rfl⟩ := h
  rw [show l.take 17 = l.take (7 + 2 + 8) from rfl]
  simp only [List.take_add]
  rw [take_eq_map_byteAt (by omega)]
  simp only [sawSaved, littleEndian_ofNat_natAt (show 7 + 2 ≤ l.length by omega),
    littleEndian_natAt (show 9 + 8 ≤ l.length by omega), ofNat_bit0 hkey,
    ofNat_lowBits (n := 3) (Nat.lt_succ_of_le hupdate), ofNat_lowBits (n := 4) (b := byteAt l 5) (by omega)]
  rfl

theorem mapperSaved_of_loadMapper {l : List Byte} {s t : State} (hl : mapperSavedLen s.active ≤ l.length)
    (h : loadMapper l s = some t) : mapperSaved t = l.take (mapperSavedLen s.active) := by
  cases ha : s.active <;> simp only [ha, mapperSavedLen] at hl ⊢ <;>
    simp only [loadMapper, ha, Option.some.injEq, Option.map_eq_some_iff] at h
  case none => subst h; simp [mapperSaved, ha]
  case bandai =>
    obtain ⟨r, hr, rfl⟩ := h
    simpa only [mapperSaved, ha] using bandaiSaved_of_bytes hl hr
  case mmc2 | mmc4 =>
    obtain ⟨r, hr, rfl⟩ := h
    simpa only [mapperSaved, ha] using mmcSaved_of_bytes hl hr
  case sunsoft =>
    subst h
    simpa only [mapperSaved, ha] using sunsoftSaved_of_bytes hl

theorem audioSaved_of_loadAudio {l : List Byte} {s t : State} (hl : audioSavedLen s.cart.audioOption ≤ l.length)
    (h : loadAudio l s = some t) : audioSaved t = l.take (audioSavedLen s.cart.audioOption) := by
  cases ho : s.cart.audioOption <;> simp only [ho, audioSavedLen] at hl ⊢ <;> simp only [loadAudio, ho] at h
  case none => cases h; simp [audioSaved, ho]
  case square =>
    split at h
    case h_1 c0 c1 h0 h1 =>
      cases h
      rw [show l.take 89 = l.take (44 + 44 + 1) from rfl, List.take_add, List.take_add,
        ← squareSaved_of_bytes (by omega) h0, ← squareSaved_of_bytes (by simp; omega) h1,
        take_eq_map_byteAt (n := 1) (by simp; omega)]
      simp [audioSaved, ho, byteAt_drop]
    case h_2 => cases h
  case saw =>
    obtain ⟨ch, hch, rfl⟩ := Option.map_eq_some_iff.mp h
    simpa only [audioSaved, ho] using sawSaved_of_bytes hl hch

/-! ## Which streams are accepted -/

/-- Field `r.1` of a payload is between the bounds `r.2.1` and `r.2.2` (46_lifecycle.md R371). -/
def InRange (l : List Byte) (r : Nat × Nat × Nat) : Prop :=
  r.2.1 ≤ (byteAt l r.1).toNat ∧ (byteAt l r.1).toNat ≤ r.2.2

theorem loadMapper_isSome (l : List Byte) (s : State) :
    (loadMapper l s).isSome = true ↔ ∀ r ∈ mapperRanges s.active, InRange l r := by
  cases ha : s.active <;> simp only [loadMapper, ha, mapperRanges]
  case none | sunsoft => simp
  case bandai => simp [bandaiOfBytes, InRange]
  case mmc2 | mmc4 => simp [mmcOfBytes, InRange, isTrigger_iff, and_assoc]

/-- The ranges of one square channel; the chip's two channels have them 44 bytes apart (46_lifecycle.md R368, R371). -/
theorem audioRanges_square : audioRanges .square =
    [(4, 0, 15), (5, 0, 1), (6, 0, 1), (8, 0, 15), (9, 0, 7)] ++
      [(4, 0, 15), (5, 0, 1), (6, 0, 1), (8, 0, 15), (9, 0, 7)].map fun r => (44 + r.1, r.2) := rfl

theorem squareOfBytes_isSome (args : ModelArgs) (l : List Byte) : (squareOfBytes args l).isSome = true ↔
    ∀ r ∈ [(4, 0, 15), (5, 0, 1), (6, 0, 1), (8, 0, 15), (9, 0, 7)], InRange l r := by
  simp [squareOfBytes, InRange]

theorem loadAudio_isSome (l : List Byte) (s : State) :
    (loadAudio l s).isSome = true ↔ ∀ r ∈ audioRanges s.cart.audioOption, InRange l r := by
  cases ho : s.cart.audioOption <;> simp only [loadAudio, ho]
  case none => simp [audioRanges]
  case square =>
    have h0 := squareOfBytes_isSome s.args l
    have h1 := squareOfBytes_isSome s.args (l.drop 44)
    simp only [InRange, byteAt_drop] at h1
    rw [audioRanges_square, List.forall_mem_append, List.forall_mem_map, ← h0]
    simp only [InRange, ← h1]
    cases squareOfBytes s.args l <;> cases squareOfBytes s.args (l.drop 44) <;> simp
  case saw => simp [sawOfBytes, InRange, audioRanges]

theorem mapperLen_eq (m : Active) : mapperLen m = mapperSavedLen m := by
  cases m <;> rfl

theorem audioLen_eq (o : AudioOption) : audioLen o = audioSavedLen o := by
  cases o <;> rfl

theorem payloadLen_eq (s : State) : payloadLen s = mapperSavedLen s.active + audioSavedLen s.cart.audioOption := by
  rw [payloadLen, mapperLen_eq, audioLen_eq]

theorem streamLegal_iff (s : State) : streamLegal s = true ↔
    payloadLen s ≤ s.stream.length ∧ (∀ r ∈ mapperRanges s.active, InRange s.stream r) ∧
      ∀ r ∈ audioRanges s.cart.audioOption, InRange (s.stream.drop (mapperLen s.active)) r := by
  simp only [streamLegal, payloadLen_eq, mapperLen_eq, InRange, byteAt_drop, Bool.and_eq_true, decide_eq_true_eq,
    List.all_eq_true, and_assoc]
  rfl

/-- LOAD accepts exactly the legal streams (46_lifecycle.md R369, R371). -/
theorem loadBlock_isSome (s : State) : (loadBlock s).isSome = true ↔ streamLegal s = true := by
  rw [streamLegal_iff]
  constructor
  · intro h
    obtain ⟨t, ht⟩ := Option.isSome_iff_exists.mp h
    obtain ⟨hl, u, w, hu, hw, -⟩ := loadBlock_some s t ht
    have hcart : u.cart = s.cart := by rw [loadMapper_frame _ _ _ hu]
    exact ⟨hl, (loadMapper_isSome _ s).mp (by rw [hu]; rfl), hcart ▸ (loadAudio_isSome _ u).mp (by rw [hw]; rfl)⟩
  · rintro ⟨hl, hm, ha⟩
    obtain ⟨u, hu⟩ := Option.isSome_iff_exists.mp ((loadMapper_isSome _ s).mpr hm)
    have hcart : u.cart = s.cart := by rw [loadMapper_frame _ _ _ hu]
    obtain ⟨w, hw⟩ := Option.isSome_iff_exists.mp ((loadAudio_isSome _ u).mpr (hcart.symm ▸ ha))
    simp [loadBlock, hl, hu, hw]

/-! ## LOAD -/

/-- A loaded state has the read bytes as its payload, and the stream is what follows them. -/
theorem loadBlock_saved {s t : State} (h : loadBlock s = some t) :
    mapperSaved t ++ audioSaved t = s.stream.take (mapperSavedLen s.active + audioSavedLen s.cart.audioOption) ∧
      t.stream = s.stream.drop (mapperSavedLen s.active + audioSavedLen s.cart.audioOption) := by
  obtain ⟨hl, u, w, hu, hw, rfl⟩ := loadBlock_some s t h
  rw [payloadLen_eq] at hl ⊢
  have hcart : u.cart = s.cart := by rw [loadMapper_frame _ _ _ hu]
  have hmapper : mapperSaved w = mapperSaved u := by rw [loadAudio_frame _ _ _ hw]; rfl
  rw [mapperLen_eq] at hw
  refine ⟨?_, rfl⟩
  calc mapperSaved w ++ audioSaved w
      = s.stream.take (mapperSavedLen s.active) ++
          (s.stream.drop (mapperSavedLen s.active)).take (audioSavedLen u.cart.audioOption) := by
        rw [hmapper, mapperSaved_of_loadMapper (by omega) hu,
          audioSaved_of_loadAudio (by rw [hcart, List.length_drop]; omega) hw]
    _ = _ := by rw [hcart, List.take_add]

theorem exec_load_of_illegal {s : State} (hn : s.active ≠ .none) (h : streamLegal s = false) :
    exec .load s = .refused .badStream := by
  have hb : loadBlock s.clearReport = none := by
    rw [← Option.not_isSome_iff_eq_none, loadBlock_isSome]
    exact ne_true_of_eq_false h
  simp only [exec, execLoad, whenReady_of_ne _ _ hn, hb]

theorem exec_load_of_legal {s : State} (hn : s.active ≠ .none) (h : streamLegal s = true) :
    ∃ t, exec .load s = .next t ∧ loadBlock s.clearReport = some t := by
  obtain ⟨t, ht⟩ := Option.isSome_iff_exists.mp ((loadBlock_isSome s.clearReport).mpr h)
  exact ⟨t, by simp only [exec, execLoad, whenReady_of_ne _ _ hn, ht], ht⟩

/-! ## A LOAD's word next -/

theorem decode_loadWord (sel : Selection) : decode sel 0x80000000#32 = .ok (.one .load) := rfl

section
variable {s : State} {rest : List Input} (hin : s.inputs = .transaction 0x80000000#32 :: rest) (hn : s.active ≠ .none)
include hin hn

theorem step_load_of_illegal (h : streamLegal s = false) : step s = .refused .badStream := by
  rw [step_transaction hin]
  exact runWord_refused (decode_loadWord _) (exec_load_of_illegal (s := takeInput rest s) hn h)

theorem step_load_of_legal (h : streamLegal s = true) :
    ∃ u, step s = .next u ∧ u.inputs = rest ∧ u.pos = s.pos + 1 ∧
      mapperSaved u ++ audioSaved u = s.stream.take (mapperSavedLen s.active + audioSavedLen s.cart.audioOption) ∧
      u.stream = s.stream.drop (mapperSavedLen s.active + audioSavedLen s.cart.audioOption) := by
  obtain ⟨t, ht, hb⟩ := exec_load_of_legal (s := takeInput rest s) hn h
  have hstep : step s = .next t.advance := by
    rw [step_transaction hin]
    exact runWord_next (decode_loadWord _) ht
  obtain ⟨hpos, hinputs⟩ := positionAdvances.1 s _ _ rest hin hstep
  obtain ⟨hsaved, hstream⟩ := loadBlock_saved hb
  exact ⟨_, hstep, hinputs, hpos, hsaved, hstream⟩

end

/-- Settles O60: the hand-over's step replaces the stream, and LOAD's step on that state accepts exactly the legal streams. -/
theorem saveStreamHandover : Obligations.SaveStreamHandover := by
  refine ⟨fun s bytes rest hin => step_saveStream hin, fun s bytes rest hn hin => ?_⟩
  let t : State := { s with inputs := .transaction 0x80000000#32 :: rest, out := {}, stream := bytes }
  exact ⟨t, step_saveStream hin, step_load_of_illegal (s := t) rfl hn, step_load_of_legal (s := t) rfl hn⟩

end Sys2Proof.Machine
end

section

/-! PROOFS. The decoder and the encoder are inverse to each other, and which words decode (30_encoding.md R100 to R110). -/

namespace Sys2Proof.Machine

/-! ## A word put together from its fields (30_encoding.md R100, R102, R106, R107) -/

/-- A word is its kind above its low 28 bits. -/
theorem kindWord_kindOf (w : TxWord) : kindWord (kindOf w) (w.extractLsb' 0 28) = w :=
  (BitVec.extractLsb'_append_extractLsb'_eq_extractLsb' rfl).trans BitVec.extractLsb'_eq_self

theorem kindWord_eq {w : TxWord} {k : BitVec 4} {r : BitVec 28} (hk : (kindOf w).toNat = k.toNat)
    (hr : r = w.extractLsb' 0 28) : kindWord k r = w := by
  rw [hr, ← BitVec.eq_of_toNat_eq hk, kindWord_kindOf]

/-- A bus write whose bits 27 to 24 are 0 is the word of its address and value. -/
theorem wrWord_wrAddr_wrVal {w : TxWord} (hk : (kindOf w).toNat = 0) (h0 : (w.extractLsb' 24 4).toNat = 0) :
    wrWord (wrAddr w) (wrVal w) = w := by
  apply BitVec.eq_of_toNat_eq
  rw [wrWord_toNat]
  simp only [kindOf, wrAddr, wrVal, BitVec.extractLsb'_toNat, Nat.shiftRight_eq_div_pow] at *
  omega

/-- A must-be-0 field above the low `n` bits adds nothing to them. -/
theorem zero_append_extract {w : TxWord} {m n : Nat} (h : (w.extractLsb' n m).toNat = 0) :
    0#m ++ w.extractLsb' 0 n = w.extractLsb' 0 (m + n) := by
  rw [show 0#m = w.extractLsb' n m from (BitVec.eq_of_toNat_eq h).symm]
  exact BitVec.extractLsb'_append_extractLsb'_eq_extractLsb' (Nat.zero_add n).symm

theorem ofBool_getLsbD (w : TxWord) (n : Nat) : BitVec.ofBool (w.getLsbD n) = w.extractLsb' n 1 := by
  ext i hi
  obtain rfl : i = 0 := by omega
  simp

/-- RENDER_LINE's four flags are bits 21 to 18. -/
theorem renderFlags_eq (w : TxWord) :
    BitVec.ofBool (w.getLsbD 21) ++ BitVec.ofBool (w.getLsbD 20) ++ BitVec.ofBool (w.getLsbD 19) ++
      BitVec.ofBool (w.getLsbD 18) = w.extractLsb' 18 4 := by
  apply BitVec.eq_of_toNat_eq
  simp only [ofBool_getLsbD, append_toNat, BitVec.extractLsb'_toNat, Nat.shiftRight_eq_div_pow]
  omega

theorem encode_renderOf {w : TxWord} (hk : (kindOf w).toNat = 0x5) (h0 : (w.extractLsb' 22 6).toNat = 0) :
    encode (renderOf w) = w := by
  refine kindWord_eq hk (BitVec.eq_of_toNat_eq ?_)
  rw [renderFlags_eq, renderRest_toNat]
  simp only [BitVec.extractLsb'_toNat, Nat.shiftRight_eq_div_pow] at *
  omega

theorem encode_initOf {w : TxWord} (hk : (kindOf w).toNat = 0x9) : encode (initOf w) = w := by
  refine kindWord_eq hk (BitVec.eq_of_toNat_eq ?_)
  rw [initRest_toNat]
  simp only [BitVec.extractLsb'_toNat, Nat.shiftRight_eq_div_pow]
  omega

/-! ## The windows of the components (20_memory.md R71) -/

theorem bandaiWindow_iff {n : Nat} {a : Addr} :
    bandaiWindow n a = true ↔ 0x6000 ≤ a.toNat ∧ (portIndex a).toNat = n := by
  simp [bandaiWindow]

theorem inWindow_iff {n : Nat} {a : Addr} : inWindow n a = true ↔ (windowSel a).toNat = n := by
  simp [inWindow]

theorem sawWindow_iff {k : Nat} {a : Addr} :
    sawWindow k a = true ↔ inWindow 0xB a = true ∧ (sawSel a).toNat = k := by
  simp [sawWindow]

/-! ## What the decoder reads from a word is an instruction of that word -/

/-- `i` is a well-formed instruction of the selected components, and `w` is its word. -/
def IsReading (sel : Selection) (w : TxWord) (i : Instr) : Prop :=
  encode i = w ∧ i.wf = true ∧ i.componentOf sel

section
variable {sel : Selection} {a : Addr} {v : Byte} {i : Instr}

theorem isReading_of_bandaiPort (hs : sel.active = .bandai) (h : bandaiPort a v = some i) :
    IsReading sel (wrWord a v) i := by
  unfold bandaiPort at h
  split at h
  · cases h
  next ha =>
    split at h
    case h_16 =>
      simp only [imp_false] at *
      cases h
      exact ⟨rfl, bandaiWindow_iff.mpr ⟨by omega, by omega⟩, hs⟩
    all_goals
      next hn => cases h; exact ⟨rfl, bandaiWindow_iff.mpr ⟨Nat.not_lt.mp ha, hn⟩, hs⟩

/-- MMC2 and MMC4 differ in their register at $A only. -/
theorem isReading_of_mmcPort {prg : Addr → Byte → Instr} (hs : sel.active = .mmc2 ∨ sel.active = .mmc4)
    (hp : (windowSel a).toNat = 0xA → IsReading sel (wrWord a v) (prg a v)) (h : mmcPort prg a v = some i) :
    IsReading sel (wrWord a v) i := by
  unfold mmcPort at h
  split at h
  case h_1 hn => cases h; exact ⟨rfl, Bool.or_eq_true_iff.mpr (.inl (inWindow_iff.mpr hn)), hs⟩
  case h_2 hn => cases h; exact ⟨rfl, Bool.or_eq_true_iff.mpr (.inr (inWindow_iff.mpr hn)), hs⟩
  case h_3 hn => cases h; exact hp hn
  case h_9 => cases h
  all_goals
    next hn => cases h; exact ⟨rfl, inWindow_iff.mpr hn, hs⟩

theorem isReading_of_sunsoftPort (hs : sel.active = .sunsoft) (h : sunsoftPort a v = some i) :
    IsReading sel (wrWord a v) i := by
  unfold sunsoftPort at h
  split at h
  case h_9 => cases h
  all_goals
    next hn => cases h; exact ⟨rfl, inWindow_iff.mpr hn, hs⟩

theorem isReading_of_squarePort (hs : sel.audio = .square) (h : squarePort a v = some i) :
    IsReading sel (wrWord a v) i := by
  unfold squarePort at h
  split at h
  case h_11 => cases h
  all_goals
    next hn => cases h; exact ⟨congrArg (wrWord · v) (BitVec.eq_of_toNat_eq hn.symm), rfl, hs⟩

theorem isReading_of_sawPort (hs : sel.audio = .saw) (h : sawPort a v = some i) : IsReading sel (wrWord a v) i := by
  unfold sawPort at h
  split at h
  next hw =>
    split at h
    case h_4 =>
      simp only [imp_false] at *
      cases h
      exact ⟨rfl, sawWindow_iff.mpr ⟨hw, by omega⟩, hs⟩
    all_goals
      next hn => cases h; exact ⟨rfl, sawWindow_iff.mpr ⟨hw, hn⟩, hs⟩
  · cases h

theorem isReading_of_mapperPort (h : mapperPort sel.active a v = some i) : IsReading sel (wrWord a v) i := by
  cases hs : sel.active <;> rw [hs] at h
  case none => cases h
  case bandai => exact isReading_of_bandaiPort hs h
  case mmc2 => exact isReading_of_mmcPort (prg := .mmc2Prg8) (.inl hs) (fun hn => ⟨rfl, inWindow_iff.mpr hn, hs⟩) h
  case mmc4 => exact isReading_of_mmcPort (prg := .mmc4Prg16) (.inr hs) (fun hn => ⟨rfl, inWindow_iff.mpr hn, hs⟩) h
  case sunsoft => exact isReading_of_sunsoftPort hs h

theorem isReading_of_audioPort (h : audioPort sel.audio a v = some i) : IsReading sel (wrWord a v) i := by
  cases hs : sel.audio <;> rw [hs] at h
  case none => cases h
  case square => exact isReading_of_squarePort hs h
  case saw => exact isReading_of_sawPort hs h

end

theorem whenZero_eq_ok {n : Nat} {i : Instr} {d : Decoded} : whenZero n i = .ok d ↔ n = 0 ∧ .one i = d := by
  unfold whenZero
  split <;> simp [*]

/-- A word that decodes is a bus write read by each component, or the word of one instruction of its kind. -/
theorem decode_eq_ok_cases {sel : Selection} {w : TxWord} {d : Decoded} (h : decode sel w = .ok d) :
    (wrWord (wrAddr w) (wrVal w) = w ∧
      d = .write (mapperPort sel.active (wrAddr w) (wrVal w)) (audioPort sel.audio (wrAddr w) (wrVal w))) ∨
    ∃ i, d = .one i ∧ IsReading sel w i := by
  unfold decode at h
  split at h
  case h_1 hk =>
    split at h
    next h0 => cases h; exact .inl ⟨wrWord_wrAddr_wrVal hk h0, rfl⟩
    · cases h
  case h_2 hk | h_3 hk | h_4 hk =>
    obtain ⟨h0, rfl⟩ := whenZero_eq_ok.mp h
    exact .inr ⟨_, rfl, kindWord_eq hk (zero_append_extract h0), rfl, trivial⟩
  case h_5 hk | h_7 hk | h_8 hk | h_9 hk =>
    obtain ⟨h0, rfl⟩ := whenZero_eq_ok.mp h
    exact .inr ⟨_, rfl, kindWord_eq hk (BitVec.eq_of_toNat_eq h0.symm), rfl, trivial⟩
  case h_6 hk =>
    obtain ⟨h0, rfl⟩ := whenZero_eq_ok.mp h
    exact .inr ⟨_, rfl, encode_renderOf hk h0, rfl, trivial⟩
  case h_10 hk =>
    split at h
    · cases h
    next ha =>
      cases h
      exact .inr ⟨_, rfl, encode_initOf hk, decide_eq_true fun e => ha (congrArg BitVec.toNat e), trivial⟩
  case h_16 =>
    simp only [imp_false] at *
    have hk : (kindOf w).toNat = (0xF#4).toNat := by rw [BitVec.toNat_ofNat]; omega
    cases h
    exact .inr ⟨_, rfl, kindWord_eq hk rfl, rfl, trivial⟩
  all_goals
    next hk => cases h; exact .inr ⟨_, rfl, kindWord_eq hk rfl, rfl, trivial⟩

theorem isReading_of_decode {sel : Selection} {w : TxWord} {d : Decoded} {i : Instr} (h : decode sel w = .ok d)
    (hi : d.holds i) : IsReading sel w i := by
  obtain ⟨hw, rfl⟩ | ⟨j, rfl, hj⟩ := decode_eq_ok_cases h
  · rw [← hw]
    rcases hi with hi | hi
    · exact isReading_of_mapperPort hi
    · exact isReading_of_audioPort hi
  · cases hi
    exact hj

/-- Settles O48: each component's port function and each other kind's arm of the decoder yields an `IsReading`. -/
theorem encodeOfDecode : Obligations.EncodeOfDecode := fun _ _ _ _ h hi => isReading_of_decode h hi

/-! ## A bus write is read back by its component (30_encoding.md R109, R110) -/

section
variable {sel : Selection} {a : Addr} {v : Byte} {i : Instr}

theorem decode_wrWord_holds_mapper (h : mapperPort sel.active a v = some i) :
    ∃ d, decode sel (wrWord a v) = .ok d ∧ d.holds i :=
  ⟨_, decode_wrWord sel a v, .inl h⟩

theorem decode_wrWord_holds_audio (h : audioPort sel.audio a v = some i) :
    ∃ d, decode sel (wrWord a v) = .ok d ∧ d.holds i :=
  ⟨_, decode_wrWord sel a v, .inr h⟩

/-- A window that MMC2 and MMC4 share. -/
theorem mapperPort_of_mmcPort (hs : sel.active = .mmc2 ∨ sel.active = .mmc4) (h : ∀ prg, mmcPort prg a v = some i) :
    mapperPort sel.active a v = some i := by
  rcases hs with hs | hs <;> rw [hs] <;> exact h _

end

/-- One group of cases per component: the instruction's window decides the arm of the component's port function. -/
theorem decode_encode_of_isBusWrite {sel : Selection} {i : Instr} (hb : i.isBusWrite = true) (hw : i.wf = true)
    (hs : i.componentOf sel) : ∃ d, decode sel (encode i) = .ok d ∧ d.holds i := by
  cases i
  case bandaiChr0 | bandaiChr1 | bandaiChr2 | bandaiChr3 | bandaiChr4 | bandaiChr5 | bandaiChr6 | bandaiChr7 | bandaiPrg
      | bandaiMirror | bandaiIrqctl | bandaiLatchlo | bandaiLatchhi | bandaiPort13 | bandaiPort14 | bandaiPort15 =>
    obtain ⟨ha, hn⟩ := bandaiWindow_iff.mp hw
    apply decode_wrWord_holds_mapper
    simp only [mapperPort, show sel.active = .bandai from hs, bandaiPort, if_neg (Nat.not_lt.mpr ha), hn]
  case mmcUnclaimed =>
    apply decode_wrWord_holds_mapper
    refine mapperPort_of_mmcPort hs fun prg => ?_
    rcases Bool.or_eq_true_iff.mp hw with hn | hn <;> simp only [mmcPort, inWindow_iff.mp hn]
  case mmcChrfd0 | mmcChrfe0 | mmcChrfd1 | mmcChrfe1 | mmcMirror =>
    apply decode_wrWord_holds_mapper
    refine mapperPort_of_mmcPort hs fun prg => ?_
    simp only [mmcPort, inWindow_iff.mp hw]
  case mmc2Prg8 =>
    apply decode_wrWord_holds_mapper
    simp only [mapperPort, show sel.active = .mmc2 from hs, mmcPort, inWindow_iff.mp hw]
  case mmc4Prg16 =>
    apply decode_wrWord_holds_mapper
    simp only [mapperPort, show sel.active = .mmc4 from hs, mmcPort, inWindow_iff.mp hw]
  case sunsoftChr0 | sunsoftChr1 | sunsoftChr2 | sunsoftChr3 | sunsoftNt0 | sunsoftNt1 | sunsoftNtctl | sunsoftPrg =>
    apply decode_wrWord_holds_mapper
    simp only [mapperPort, show sel.active = .sunsoft from hs, sunsoftPort, inWindow_iff.mp hw]
  case sq0R0 | sq0R1 | sq0R2 | sq0R3 | sq1R0 | sq1R1 | sq1R2 | sq1R3 | sqDa | sqEnable =>
    apply decode_wrWord_holds_audio
    rw [show sel.audio = .square from hs]
    rfl
  case sawR0 | sawR1 | sawR2 | sawR3 =>
    obtain ⟨ha, hn⟩ := sawWindow_iff.mp hw
    apply decode_wrWord_holds_audio
    simp only [audioPort, show sel.audio = .saw from hs, sawPort, if_pos ha, hn]
  all_goals simp [Instr.isBusWrite] at hb

/-! ## Every other instruction is read back under every selection (30_encoding.md R101, R103 to R108) -/

theorem kindWord_getLsbD (k : BitVec 4) (r : BitVec 28) {n : Nat} (h : n < 28) :
    (kindWord k r).getLsbD n = r.getLsbD n := by
  rw [kindWord, BitVec.getLsbD_append, if_pos h]

theorem renderOf_kindWord (k : BitVec 4) (v : BitVec 15) (fineX : BitVec 3) (bgSel leftClip bgEnabled widthOk : Bool) :
    renderOf (kindWord k (0#6 ++ (BitVec.ofBool widthOk ++ BitVec.ofBool bgEnabled ++ BitVec.ofBool leftClip ++
      BitVec.ofBool bgSel) ++ fineX ++ v)) = .renderLine v fineX bgSel leftClip bgEnabled widthOk := by
  unfold renderOf
  congr 1
  · rw [kindWord_extract _ _ _ _ (by decide), BitVec.extractLsb'_append_eq_right]
  · rw [kindWord_extract _ _ _ _ (by decide), BitVec.extractLsb'_append_eq_of_le (by decide),
      BitVec.extractLsb'_append_eq_right]
  all_goals
    rw [kindWord_getLsbD _ _ (by decide)]
    simp only [BitVec.getLsbD_append, BitVec.getLsbD_ofBool]
    simp

theorem initOf_kindWord (k : BitVec 4) (id prg chr : Byte) (mirror audio : BitVec 2) :
    initOf (kindWord k (id ++ audio ++ mirror ++ chr ++ prg)) = .init id prg chr mirror audio := by
  unfold initOf
  congr 1
  all_goals
    rw [kindWord_extract _ _ _ _ (by decide)]
    apply BitVec.eq_of_toNat_eq
    rw [BitVec.extractLsb'_toNat, initRest_toNat, Nat.shiftRight_eq_div_pow]
    omega

theorem decode_encode_of_not_isBusWrite {i : Instr} (sel : Selection) (hb : i.isBusWrite = false) (hw : i.wf = true) :
    decode sel (encode i) = .ok (.one i) := by
  cases i
  case ppuLatch p | scanlineStart p | predict p =>
    unfold decode encode
    rw [kindOf_kindWord]
    refine whenZero_eq_ok.mpr ⟨?_, ?_⟩
    · rw [kindWord_extract _ _ _ _ (by decide), BitVec.extractLsb'_append_eq_left]
      rfl
    · rw [kindWord_extract _ _ _ _ (by decide), BitVec.extractLsb'_append_eq_right]
  case reset | sample | save | load => rfl
  case renderLine v fineX bgSel leftClip bgEnabled widthOk =>
    unfold decode encode
    rw [kindOf_kindWord]
    refine whenZero_eq_ok.mpr ⟨?_, ?_⟩
    · rw [kindWord_extract _ _ _ _ (by decide), BitVec.extractLsb'_append_eq_of_le (by decide),
        BitVec.extractLsb'_append_eq_of_le (by decide), BitVec.extractLsb'_append_eq_left]
      rfl
    · rw [renderOf_kindWord]
  case init id prg chr mirror audio =>
    have hread := initOf_kindWord 0x9#4 id prg chr mirror audio
    obtain ⟨-, -, -, -, ha⟩ := Instr.init.inj hread
    unfold decode encode
    rw [kindOf_kindWord]
    refine (if_neg ?_).trans (congrArg (fun i => Except.ok (Decoded.one i)) hread)
    rw [ha]
    exact fun e => of_decide_eq_true hw (BitVec.eq_of_toNat_eq e)
  case reservedA r | reservedB r | reservedC r | reservedD r | reservedE r | reservedF r =>
    change decode sel (kindWord _ r) = _
    unfold decode
    rw [kindOf_kindWord, kindWord_extract _ _ 0 28 (by decide), BitVec.extractLsb'_eq_self]
    rfl
  all_goals simp [Instr.isBusWrite] at hb

/-- Settles O47: a bus write is read back by its component, and every other instruction by the word's kind alone. -/
theorem decodeOfEncode : Obligations.DecodeOfEncode := by
  intro sel i hw hs
  cases hb : i.isBusWrite with
  | true => exact decode_encode_of_isBusWrite hb hw hs
  | false => exact ⟨.one i, decode_encode_of_not_isBusWrite sel hb hw, rfl⟩

/-! ## Which words decode (30_encoding.md R108) -/

theorem ite_isOk {p : Prop} [Decidable p] {x : Decoded} {e : DecodeError} :
    (∃ d, (if p then .ok x else .error e : Except DecodeError Decoded) = .ok d) ↔ p := by
  split <;> simp [*]

/-- Only the words of R108 (b) and (c) fail to decode; those of R108 (a) decode to the reserved rows. -/
theorem decode_isOk_iff (sel : Selection) (w : TxWord) :
    (∃ d, decode sel w = .ok d) ↔ invalidWord w.toNat = false ∨ 0xA ≤ (kindOf w).toNat := by
  rw [← kindWord_kindOf w]
  generalize kindOf w = k, w.extractLsb' 0 28 = r
  unfold decode
  rw [invalidWord_kindWord, kindOf_kindWord]
  split
  case h_1 hk | h_2 hk | h_3 hk | h_4 hk | h_6 hk =>
    refine ite_isOk.trans ?_
    rw [kindWord_extract _ _ _ _ (by decide)]
    simp [hk, Nat.shiftRight_eq_div_pow]
    omega
  case h_5 hk | h_7 hk | h_8 hk | h_9 hk =>
    refine ite_isOk.trans ?_
    rw [kindWord_extract _ _ _ _ (by decide)]
    simp [hk]
  case h_10 hk =>
    rw [← ite_not, ite_isOk, kindWord_extract _ _ _ _ (by decide)]
    simp [hk, Nat.shiftRight_eq_div_pow]
  case h_16 =>
    simp only [imp_false] at *
    exact iff_of_true ⟨_, rfl⟩ (.inr (by omega))
  all_goals
    next hk => exact iff_of_true ⟨_, rfl⟩ (.inr (by omega))

theorem kindOf_lt_of_valid {w : TxWord} (h : invalidWord w.toNat = false) : (kindOf w).toNat < 0xA := by
  by_contra hk
  rw [← kindWord_kindOf w, invalidWord_kindWord, decide_eq_true (Nat.not_lt.mp hk)] at h
  simp at h

theorem isReserved_eq {i : Instr} {w : TxWord} (h : encode i = w) : i.isReserved = decide (0xA ≤ (kindOf w).toNat) := by
  rw [Instr.isReserved, Instr.kind, h]

theorem exec_of_isReserved {i : Instr} (h : i.isReserved = true) (s : State) : ∃ r, exec i s = .refused r := by
  cases i
  case reservedA | reservedB | reservedC | reservedD | reservedE | reservedF => exact ⟨_, rfl⟩
  all_goals simp [Instr.isReserved] at h

/-- A word of R108 does not decode, or decodes to a reserved row, which refuses. -/
theorem runWord_of_invalid {w : TxWord} (h : invalidWord w.toNat = true) (s : State) :
    ∃ r, runWord w s = .refused r := by
  cases hd : decode s.selection w with
  | error e => exact ⟨_, runWord_of_error hd⟩
  | ok d =>
    have hk := ((decode_isOk_iff _ w).mp ⟨d, hd⟩).resolve_left (ne_false_of_eq_true h)
    obtain ⟨hw, rfl⟩ | ⟨i, rfl, henc, -, -⟩ := decode_eq_ok_cases hd
    · rw [← hw, invalidWord_wrWord] at h
      cases h
    · have hres : i.isReserved = true := (isReserved_eq henc).trans (decide_eq_true hk)
      obtain ⟨r, hr⟩ := exec_of_isReserved hres s
      exact ⟨r, runWord_refused hd hr⟩

/-- Settles O45: a step runs the word, which a word of R108 stops; what any other word decodes to has a kind below $A. -/
theorem decodeValidity : Obligations.DecodeValidity := by
  refine ⟨fun s w rest hin hinv => ?_, fun sel w hval => ?_⟩
  · rw [step_transaction hin]
    exact runWord_of_invalid hinv _
  · obtain ⟨d, hd⟩ := (decode_isOk_iff sel w).mpr (.inl hval)
    refine ⟨d, hd, fun i hi => ?_⟩
    obtain ⟨henc, -, -⟩ := isReading_of_decode hd hi
    rw [isReserved_eq henc]
    exact decide_eq_false (Nat.not_le.mpr (kindOf_lt_of_valid hval))

/-- Settles O46: the meaning of each reserved row is its refusal. -/
theorem reservedKindsStop : Obligations.ReservedKindsStop := fun _ _ => ⟨rfl, rfl, rfl, rfl, rfl, rfl⟩

/-- Settles O49: the decoder computes each word's fields. -/
theorem tableWords : Obligations.TableWords := ⟨rfl, rfl, rfl, rfl, rfl, rfl, rfl⟩

end Sys2Proof.Machine
end

section

/-! PROOFS. The bank, mirroring and interrupt ports (40_bandai.md), with the PRG and mirroring windows of the other variants
(41_mmc2_mmc4.md R171, R176, R177, 42_sunsoft.md R214). -/

namespace Sys2Proof.Machine

/-! ## Who is addressed -/

/-- The one variant that a port belongs to is active. -/
theorem onMapper_singleton {m : Active} {s : State} (ha : s.active = m) (hm : m ≠ .none) (f : State → State) :
    onMapper [m] s f = .next (f s.clearReport) :=
  onMapper_of_mem _ _ _ (ha.trans_ne hm) (List.mem_singleton.mpr ha)

theorem onMapper_mmc {s : State} (ha : s.active = .mmc2 ∨ s.active = .mmc4) (f : State → State) :
    onMapper [.mmc2, .mmc4] s f = .next (f s.clearReport) := by
  have hn : s.active ≠ .none := by
    rcases ha with ha | ha <;> simp [ha]
  exact onMapper_of_mem _ _ _ hn (by simpa using ha)

/-! ## CHR ports (R131) -/

theorem selectChr1_maskPage {c : Cartridge} (h : PowerOfTwo c.chrPages.toNat) (n : Fin 8) (v : Byte) (b : BusView) :
    selectChr1 n (maskPage c.chr1 v) b =
      { b with chrSlot := b.chrSlot.set n.val (v.toNat % (8 * c.chrPages.toNat)) n.isLt } := by
  rw [selectChr1, Cartridge.chr1, maskPage_eq_mod h.eight]

/-- Settles O1: each port is `bandaiChr` of its number, whose page mask is a remainder on an accepted cartridge. -/
theorem bandaiChrSelect : Obligations.BandaiChrSelect := by
  intro s a v ha hc p hp
  have hchr : PowerOfTwo s.cart.chrPages.toNat := (hc (ha.trans_ne (by decide))).2.1
  have hexec : exec p.1 s = onMapper [.bandai] s (bandaiChr p.2 v) := by
    revert p
    simp only [List.forall_mem_cons]
    exact ⟨rfl, rfl, rfl, rfl, rfl, rfl, rfl, rfl, fun _ h => nomatch h⟩
  rw [hexec, onMapper_singleton ha (by decide), bandaiChr]
  simp only [State.clearReport_cart, State.clearReport_view, State.clearReport_bandai, selectChr1_maskPage hchr]

/-! ## PRG ports (R132, 41_mmc2_mmc4.md R171, 42_sunsoft.md R214) -/

theorem selectPrg16_maskPage {c : Cartridge} (h : PowerOfTwo c.prgPages.toNat) (v : Byte) (b : BusView) :
    selectPrg16 0 (maskPage c.prg16 v) b =
      { b with prgSlot := withLow16 (v.toNat % c.prgPages.toNat) b.prgSlot } := by
  rw [selectPrg16_low_eq, Cartridge.prg16, maskPage_eq_mod h]

theorem selectPrg8_maskPage {c : Cartridge} (h : PowerOfTwo c.prgPages.toNat) (slot : Fin 4) (v : Byte) (b : BusView) :
    selectPrg8 slot (maskPage c.prg8 v) b =
      { b with prgSlot := b.prgSlot.set slot.val (v.toNat % (2 * c.prgPages.toNat)) slot.isLt } := by
  rw [selectPrg8, Cartridge.prg8, maskPage_eq_mod h.double]

/-- $C000 to $FFFF shows the last 16 KiB page on every variant (40 R140, 41 R185, 42 R220). -/
theorem viewOf_prgSlot_high {s : State} (hn : s.active ≠ .none) :
    (viewOf s).prgSlot[2] = s.cart.prg8 - 2 ∧ (viewOf s).prgSlot[3] = s.cart.prg8 - 1 := by
  cases ha : s.active <;> simp only [viewOf, ha]
  case none => exact absurd ha hn
  all_goals exact ⟨rfl, rfl⟩

/-- Settles O2: each port's push is a remainder on an accepted cartridge, and slots 2 and 3 are the pushed view's. -/
theorem prgSelect : Obligations.PrgSelect := by
  intro s a v hc
  have hprg (hn : s.active ≠ .none) : PowerOfTwo s.cart.prgPages.toNat := (hc hn).1
  refine ⟨fun ha => ?bandai, fun ha => ?mmc2, fun ha => ?mmc4, fun ha => ?sunsoft, fun hn hv => ?high⟩
  case bandai =>
    refine (onMapper_singleton ha (by decide) _).trans ?_
    simp [bandaiPrg, selectPrg16_maskPage (hprg (ha.trans_ne (by decide)))]
  case mmc2 =>
    refine (onMapper_singleton ha (by decide) _).trans ?_
    simp [mmc2Prg8, selectPrg8_maskPage (hprg (ha.trans_ne (by decide)))]
  case mmc4 =>
    refine (onMapper_singleton ha (by decide) _).trans ?_
    simp [mmc4Prg16, selectPrg16_maskPage (hprg (ha.trans_ne (by decide)))]
  case sunsoft =>
    refine (onMapper_singleton ha (by decide) _).trans ?_
    simp [sunsoftPrg, selectPrg16_maskPage (hprg (ha.trans_ne (by decide)))]
  case high =>
    rw [hv hn]
    exact viewOf_prgSlot_high hn

/-! ## Mirroring ports (R133, 41_mmc2_mmc4.md R176) -/

theorem setMirroring_eq (m : MirrorMode) (b : BusView) : setMirroring m b = { b with ntSrc := ciramTables m } := by
  rw [setMirroring, selectNts_eq, mirrorTable_eq]

theorem low2_toNat (v : Byte) : (low2 v).toNat = v.toNat % 4 := by
  rw [low2_eq, BitVec.toNat_ofNat]

/-- V[1:0] is the code of the mode (10_state.md R31). -/
theorem modeOf_low2 {v : Byte} {m : MirrorMode} (h : (v.toNat % 4, m) ∈
    ([(0, .vertical), (1, .horizontal), (2, .singleLow), (3, .singleHigh)] : List (Nat × MirrorMode))) :
    modeOf (low2 v) = m := by
  simp only [List.mem_cons, Prod.mk.injEq, List.not_mem_nil, or_false] at h
  obtain ⟨hv, rfl⟩ | ⟨hv, rfl⟩ | ⟨hv, rfl⟩ | ⟨hv, rfl⟩ := h <;> simp only [modeOf, low2_toNat, hv]

/-- V[0] chooses VERTICAL or HORIZONTAL (41_mmc2_mmc4.md R176). -/
theorem bit0_mirror {v : Byte} {m : MirrorMode}
    (h : (v.toNat % 2, m) ∈ ([(0, .vertical), (1, .horizontal)] : List (Nat × MirrorMode))) :
    (if v.getLsbD 0 then MirrorMode.horizontal else .vertical) = m := by
  simp only [List.mem_cons, Prod.mk.injEq, List.not_mem_nil, or_false] at h
  obtain ⟨hv, rfl⟩ | ⟨hv, rfl⟩ := h <;> simp [bit0_eq, hv]

/-- Settles O3: the written bits name the mode, whose four name tables SetMirroring selects. -/
theorem mirroringWrites : Obligations.MirroringWrites := by
  refine fun s a v m => ⟨fun ha hm => ?bandai, fun ha hm => ?mmc⟩
  case bandai =>
    refine (onMapper_singleton ha (by decide) _).trans ?_
    simp only [bandaiMirror, modeOf_low2 hm, setMirroring_eq, State.clearReport_bandai, State.clearReport_view]
  case mmc =>
    refine (onMapper_mmc ha _).trans ?_
    simp only [mmcMirror, bit0_mirror hm, setMirroring_eq, State.clearReport_mmc, State.clearReport_view]

/-! ## The interrupt ports (R134 to R136) -/

/-- SCANLINE_START on BANDAI is the commit (43_irq.md R240). -/
theorem exec_scanlineStart_bandai {s : State} (ha : s.active = .bandai) (line : BitVec 9) :
    exec (.scanlineStart line) s = .next (commit s.clearReport) :=
  (ready_of_ne _ _ (ha.trans_ne (by decide))).trans (congrArg _ (if_pos ha))

theorem commit_irqEdge {s : State} (h : commitFires s.args.pseudoClocks s.bandai = true) :
    (commit s).out.irqEdge = true := by
  simp [commit, h]

/-- Settles O4: after the write the enabled counter holds the latch, so an empty latch lets the next commit fire. -/
theorem bandaiIrqControl : Obligations.BandaiIrqControl := by
  intro s a v ha
  refine ⟨_, onMapper_singleton ha (by decide) _, ?_, fun hl hv line => ?_⟩
  · simp only [bandaiIrqctl, getLsbD_zero_eq, State.clearReport_bandai]
  · refine ⟨_, exec_scanlineStart_bandai (s := bandaiIrqctl v s.clearReport) ha line, commit_irqEdge ?_⟩
    simp [commitFires, bandaiIrqctl, bit0_eq, hl, hv]

/-- Port 11 keeps the high byte of the latch (R135). -/
theorem extractHigh_append (x : BitVec 16) (v : Byte) :
    x.extractLsb' 8 8 ++ v = BitVec.ofNat 16 (x.toNat / 256 * 256 + v.toNat) := by
  apply BitVec.eq_of_toNat_eq
  simp only [append_toNat, BitVec.extractLsb'_toNat, Nat.shiftRight_eq_div_pow, BitVec.toNat_ofNat]
  omega

/-- Port 12 keeps the low byte of the latch (R136). -/
theorem append_extractLow (x : BitVec 16) (v : Byte) :
    v ++ x.extractLsb' 0 8 = BitVec.ofNat 16 (v.toNat * 256 + x.toNat % 256) := by
  apply BitVec.eq_of_toNat_eq
  simp only [append_toNat, BitVec.extractLsb'_toNat, Nat.shiftRight_zero, BitVec.toNat_ofNat]
  omega

/-- Settles O5: the new latch is the written byte beside the kept one. -/
theorem bandaiLatchBytes : Obligations.BandaiLatchBytes := by
  intro s a v ha
  rw [← extractHigh_append, ← append_extractLow]
  exact ⟨onMapper_singleton ha (by decide) _, onMapper_singleton ha (by decide) _⟩

/-! ## The ports without an effect (R137, R138, 41_mmc2_mmc4.md R177, 45_audio.md R306) -/

/-- Settles O6: the effect of each of these writes is the identity on the state with the report cleared. -/
theorem ignoredWrites : Obligations.IgnoredWrites := by
  refine fun s a v => ⟨fun ha => ?bandai, fun ha => onMapper_mmc ha id, fun hn ho => onAudio_of_eq .saw s id hn ho⟩
  simp only [List.forall_mem_cons]
  have h := onMapper_singleton ha (by decide) id
  exact ⟨h, h, h, fun _ hi => nomatch hi⟩

end Sys2Proof.Machine
end

section

/-! PROOFS. The CHR windows of MMC2 and MMC4 and the latch machine (41_mmc2_mmc4.md R172 to R175, R180, R183). -/

namespace Sys2Proof.Machine

theorem ne_none_of_mmc {s : State} (ha : s.active = .mmc2 ∨ s.active = .mmc4) : s.active ≠ .none := by
  rcases ha with ha | ha <;> exact ha.trans_ne (by decide)

/-! ## Pushing a half (R184) -/

/-- On an accepted cartridge the pushed page is a remainder. -/
theorem pushHalf_eq {s : State} (hchr : PowerOfTwo s.cart.chrPages.toNat) (h : Bool) :
    pushHalf h s = { s with view := { s.view with
      chrSlot := withChrHalf h.toNat ((latchedChr h s.mmc).toNat % (2 * s.cart.chrPages.toNat)) s.view.chrSlot } } := by
  rw [pushHalf, pushChrHalf_eq, Cartridge.chr4, maskPage_eq_mod hchr.double]

/-- A pushed view already shows the page of each half. -/
theorem pushHalf_of_viewOk {s : State} (ha : s.active = .mmc2 ∨ s.active = .mmc4) (hv : ViewOk s) (h : Bool) :
    pushHalf h s = s := by
  have hslots : s.view.chrSlot = mmcChrSlots s.cart s.mmc := by
    rw [hv (ne_none_of_mmc ha)]
    rcases ha with ha | ha <;> simp only [viewOf, ha] <;> rfl
  have hkeep : withChrHalf h.toNat (maskPage s.cart.chr4 (latchedChr h s.mmc)) s.view.chrSlot = s.view.chrSlot := by
    rw [hslots, mmcChrSlots, withChrHalf_chrHalves]
    cases h <;> rfl
  rw [pushHalf, pushChrHalf_eq, hkeep]

/-! ## The CHR windows (R172 to R175) -/

/-- A CHR window stores its register, and shows the page of V in its half if the latch selects that register. -/
theorem storeThenPush_eq {s : State} (hchr : PowerOfTwo s.cart.chrPages.toNat) {h : Bool} {l : MmcRegs → Byte}
    {tile v : Byte} {store : MmcRegs → MmcRegs}
    (hsel : l (store s.mmc) = tile → latchedChr h (store s.mmc) = v) :
    storeThenPush h l tile store s = { s with
      mmc := store s.mmc
      view := if l (store s.mmc) = tile then
          { s.view with chrSlot := withChrHalf h.toNat (v.toNat % (2 * s.cart.chrPages.toNat)) s.view.chrSlot }
        else s.view } := by
  by_cases hl : l (store s.mmc) = tile
  · rw [if_pos hl, ← hsel hl]
    exact (if_pos hl).trans (pushHalf_eq (s := { s with mmc := store s.mmc }) hchr h)
  · rw [if_neg hl]
    exact if_neg hl

/-- Settles O7: each window is `storeThenPush` of its half, latch and tile, and its latch at the tile selects the register
that it stores. -/
theorem mmcChrRegisters : Obligations.MmcChrRegisters := by
  intro s a v ha hc
  have hchr : PowerOfTwo s.clearReport.cart.chrPages.toNat := (hc (ne_none_of_mmc ha)).2.1
  refine ⟨(onMapper_mmc ha _).trans (congrArg _ ?fd0), (onMapper_mmc ha _).trans (congrArg _ ?fe0),
    (onMapper_mmc ha _).trans (congrArg _ ?fd1), (onMapper_mmc ha _).trans (congrArg _ ?fe1)⟩
  case fd0 =>
    exact storeThenPush_eq hchr (h := false) (l := (·.latch0)) (store := fun r => { r with chrFd0 := v })
      fun hl => by simp [latchedChr, show s.mmc.latch0 = 0xFD from hl]
  case fe0 =>
    exact storeThenPush_eq hchr (h := false) (l := (·.latch0)) (store := fun r => { r with chrFe0 := v })
      fun hl => by simp [latchedChr, show s.mmc.latch0 = 0xFE from hl]
  case fd1 =>
    exact storeThenPush_eq hchr (h := true) (l := (·.latch1)) (store := fun r => { r with chrFd1 := v })
      fun hl => by simp [latchedChr, show s.mmc.latch1 = 0xFD from hl]
  case fe1 =>
    exact storeThenPush_eq hchr (h := true) (l := (·.latch1)) (store := fun r => { r with chrFe1 := v })
      fun hl => by simp [latchedChr, show s.mmc.latch1 = 0xFE from hl]

/-! ## The latch machine (R180) -/

/-- A trigger tile of half h sets latch_h to itself and pushes that half. -/
theorem exec_ppuLatch_trigger {s : State} {p : PpuAddr} {h : Bool} {t : Byte}
    (ha : s.active = .mmc2 ∨ s.active = .mmc4) (ht : isTrigger t = true)
    (hhalf : p.toNat / 4096 = h.toNat) (htile : p.toNat / 16 % 256 = t.toNat) :
    exec (.ppuLatch p) s = .next (pushHalf h { s.clearReport with mmc := setLatch h t s.mmc }) := by
  have hlow : p.toNat < 0x2000 := by
    have := h.toNat_le
    omega
  have hsens : latchSensitive s.active = true := by simpa [latchSensitive] using ha
  have hp : ppuHalf p = h := by
    rw [ppuHalf_eq p hlow, hhalf]
    cases h <;> rfl
  refine (ready_of_ne _ _ (ne_none_of_mmc ha)).trans (congrArg _ ?_)
  simp [latchCheck, hsens, ppuBeyondPatterns_eq, hlow, ppuTile_of p t htile, ht, hp]

/-- The pushed half shows the page of the register that the trigger tile selects. -/
theorem exec_ppuLatch_select {s : State} {p : PpuAddr} (h : Bool) {t : Byte}
    (ha : s.active = .mmc2 ∨ s.active = .mmc4) (hc : CartOk s) (ht : isTrigger t = true)
    (hhalf : p.toNat / 4096 = h.toNat) (htile : p.toNat / 16 % 256 = t.toNat) :
    exec (.ppuLatch p) s = .next { s.clearReport with
      mmc := setLatch h t s.mmc
      view := { s.view with
        chrSlot := withChrHalf h.toNat
          ((latchedChr h (setLatch h t s.mmc)).toNat % (2 * s.cart.chrPages.toNat)) s.view.chrSlot } } := by
  rw [exec_ppuLatch_trigger ha ht hhalf htile, pushHalf_eq]
  · rfl
  · exact (hc (ne_none_of_mmc ha)).2.1

/-- On a pushed view a trigger that names the latch's value changes nothing. -/
theorem exec_ppuLatch_same {s : State} {p : PpuAddr} (h : Bool) {t : Byte}
    (ha : s.active = .mmc2 ∨ s.active = .mmc4) (hv : ViewOk s) (hsame : setLatch h t s.mmc = s.mmc)
    (ht : t = 0xFD ∨ t = 0xFE) (hhalf : p.toNat / 4096 = h.toNat) (htile : p.toNat / 16 % 256 = t.toNat) :
    exec (.ppuLatch p) s = .next s.clearReport := by
  rw [exec_ppuLatch_trigger ha (by simpa [isTrigger] using ht) hhalf htile, hsame]
  exact congrArg _ (pushHalf_of_viewOk (s := s.clearReport) ha hv h)

/-- A variant without latches, an address above the pattern tables and any other tile move no latch. -/
theorem latchCheck_of_no_trigger {s : State} {p : PpuAddr}
    (h : s.active = .bandai ∨ s.active = .sunsoft ∨ 0x2000 ≤ p.toNat ∨
      (p.toNat / 16 % 256 ≠ 0xFD ∧ p.toNat / 16 % 256 ≠ 0xFE)) : latchCheck p s = s := by
  refine if_neg ?_
  rw [ppuBeyondPatterns_eq, Bool.and_eq_true, Bool.and_eq_true, isTrigger_iff, ppuTile_toNat]
  rintro ⟨⟨hsens, hlow⟩, htile⟩
  rcases h with h | h | h | h
  · simp [latchSensitive, h] at hsens
  · simp [latchSensitive, h] at hsens
  · simp [h] at hlow
  · omega

/-- Settles O9: the four triggers are `exec_ppuLatch_select` of their half and tile, and the rest moves no latch or keeps it. -/
theorem ppuLatchMovesLatch : Obligations.PpuLatchMovesLatch := by
  refine fun s p hn hc => ⟨fun ha => ?moves, fun h => ?other, fun ha hv => ?same⟩
  case moves =>
    simp only [List.forall_mem_cons]
    exact ⟨exec_ppuLatch_select (t := 0xFD) false ha hc rfl, exec_ppuLatch_select (t := 0xFE) false ha hc rfl,
      exec_ppuLatch_select (t := 0xFD) true ha hc rfl, exec_ppuLatch_select (t := 0xFE) true ha hc rfl,
      fun _ hq => nomatch hq⟩
  case other => exact (ready_of_ne _ _ hn).trans (congrArg _ (latchCheck_of_no_trigger h))
  case same =>
    simp only [List.forall_mem_cons]
    exact ⟨exec_ppuLatch_same false ha hv rfl, exec_ppuLatch_same true ha hv rfl, fun _ hq => nomatch hq⟩

/-! ## Deferred writes (R183) -/

/-- Settles O8: by O7 the write stores V and keeps the view, so by O9 the PPU_LATCH after it shows the page of V. -/
theorem latchDeferredWrites : Obligations.LatchDeferredWrites := by
  intro s a v p ha hc
  obtain ⟨hfd0, hfe0, hfd1, hfe1⟩ := mmcChrRegisters s a v ha hc
  simp only [List.forall_mem_cons]
  refine ⟨fun hl hh ht => ⟨_, _, hfd0, if_neg hl, exec_ppuLatch_select (t := 0xFD) false ha hc rfl hh ht, ?_⟩,
    fun hl hh ht => ⟨_, _, hfe0, if_neg hl, exec_ppuLatch_select (t := 0xFE) false ha hc rfl hh ht, ?_⟩,
    fun hl hh ht => ⟨_, _, hfd1, if_neg hl, exec_ppuLatch_select (t := 0xFD) true ha hc rfl hh ht, ?_⟩,
    fun hl hh ht => ⟨_, _, hfe1, if_neg hl, exec_ppuLatch_select (t := 0xFE) true ha hc rfl hh ht, ?_⟩,
    fun _ hq => nomatch hq⟩
  all_goals
    rw [if_neg hl]
    rfl

end Sys2Proof.Machine
end

section

/-! PROOFS. The CHR windows and the name tables of SUNSOFT (42_sunsoft.md R211 to R213, R215). -/

namespace Sys2Proof.Machine

/-! ## The CHR windows (R211) -/

theorem selectChr2_maskPage {c : Cartridge} (h : PowerOfTwo c.chrPages.toNat) (w : Fin 4) (v : Byte) (b : BusView) :
    selectChr2 w (maskPage c.chr2 v) b =
      { b with chrSlot := withChrPair w.val (v.toNat % (4 * c.chrPages.toNat)) b.chrSlot } := by
  rw [selectChr2_eq, Cartridge.chr2, maskPage_eq_mod h.four]

/-- Settles O10: each window is `sunsoftChr` of its number, whose page mask is a remainder on an accepted cartridge. -/
theorem sunsoftChrSelect : Obligations.SunsoftChrSelect := by
  intro s a v ha hc p hp
  have hchr : PowerOfTwo s.cart.chrPages.toNat := (hc (ha.trans_ne (by decide))).2.1
  have hexec : exec p.1 s = onMapper [.sunsoft] s (sunsoftChr p.2 v) := by
    revert p
    simp only [List.forall_mem_cons]
    exact ⟨rfl, rfl, rfl, rfl, fun _ h => nomatch h⟩
  rw [hexec, onMapper_singleton ha (by decide), sunsoftChr]
  simp only [State.clearReport_cart, State.clearReport_view, State.clearReport_sunsoft, selectChr2_maskPage hchr]

/-! ## The name tables (R212, R213, R215) -/

/-- On an accepted cartridge PushNt selects the four name tables in arithmetic. -/
theorem pushNts_eq {s : State} (hchr : PowerOfTwo s.cart.chrPages.toNat) :
    pushNts s = { s with view := { s.view with
      ntSrc := sunsoftTables (8 * s.cart.chrPages.toNat) s.sunsoft.nt s.sunsoft.ntctl } } := by
  rw [pushNts, pushNt, selectNts_eq, sunsoftNts_eq _ _ hchr]

/-- While bit 4 of the control is 0, the name tables are CIRAM halves and the banks do not matter. -/
theorem sunsoftTables_of_ciram {ctl : Byte} (h : ctl.toNat / 16 % 2 = 0) (chr1 : Nat) (nt : Vector Byte 2) :
    sunsoftTables chr1 nt ctl = ciramTables (modeOf (BitVec.ofNat 2 ctl.toNat)) := by
  simp [sunsoftTables, ciramTables, h]

/-- A pushed view of SUNSOFT already shows the name tables of its registers. -/
theorem ntSrc_of_viewOk {s : State} (ha : s.active = .sunsoft) (hchr : PowerOfTwo s.cart.chrPages.toNat)
    (hv : ViewOk s) :
    s.view.ntSrc = sunsoftTables (8 * s.cart.chrPages.toNat) s.sunsoft.nt s.sunsoft.ntctl := by
  rw [hv (ha.trans_ne (by decide)), ← sunsoftNts_eq _ _ hchr]
  simp only [viewOf, ha, sunsoftView]

/-- Settles O11: each bank window is `sunsoftNt` of its number, and both kinds of write push the tables of the new registers.
Without bit 4 of the control, new banks leave the tables that a pushed view shows. -/
theorem sunsoftNameTables : Obligations.SunsoftNameTables := by
  intro s a v ha hc
  have hn : s.active ≠ .none := ha.trans_ne (by decide)
  have hchr : PowerOfTwo s.cart.chrPages.toNat := (hc hn).2.1
  refine ⟨fun p hp => ?bank, ?control⟩
  case bank =>
    have hexec : exec p.1 s = onMapper [.sunsoft] s (sunsoftNt p.2 v) := by
      revert p
      simp only [List.forall_mem_cons]
      exact ⟨rfl, rfl, fun _ h => nomatch h⟩
    refine ⟨_, hexec.trans (onMapper_singleton ha (by decide) _), ?next, fun hv hbit => ?kept⟩
    case next => exact pushNts_eq hchr
    case kept =>
      have hsame : sunsoftNts s.cart { s.sunsoft with nt := s.sunsoft.nt.set p.2.val v p.2.isLt } = s.view.ntSrc := by
        rw [sunsoftNts_eq _ _ hchr, ntSrc_of_viewOk ha hchr hv, sunsoftTables_of_ciram hbit, sunsoftTables_of_ciram hbit]
      simp [sunsoftNt, pushNt, hsame]
  case control => exact (onMapper_singleton ha (by decide) _).trans (congrArg _ (pushNts_eq hchr))

end Sys2Proof.Machine
end

section

/-! PROOFS. The commit and predict hooks and the look-ahead over a list of instructions (43_irq.md R240 to R247). -/

namespace Sys2Proof.Machine

/-! ## The commit (R240, R241) -/

theorem commitFires_iff (d : Nat) (r : BandaiRegs) :
    commitFires d r = true ↔ r.irqEnable = true ∧ r.irqCounter.toNat ≤ d := by
  simp [commitFires]

theorem commitRegs_of_disabled (d : Nat) {r : BandaiRegs} (h : r.irqEnable = false) : commitRegs d r = r :=
  if_neg (by simp [h])

/-- An enabled counter goes down to max(C − D, 0) and stays enabled exactly above D. -/
theorem commitRegs_of_enabled (d : Nat) {r : BandaiRegs} (h : r.irqEnable = true) :
    commitRegs d r = { r with
      irqCounter := BitVec.ofNat 16 (r.irqCounter.toNat - d), irqEnable := decide (d < r.irqCounter.toNat) } := by
  by_cases hc : r.irqCounter.toNat ≤ d
  · simp [commitRegs, h, hc, Nat.sub_eq_zero_of_le hc]
  · simp [commitRegs, h, hc, Nat.lt_of_not_le hc]

/-- A commit on a clear report raises the edge exactly when the counter fires. -/
theorem commit_clearReport (s : State) :
    commit s.clearReport = { s.clearReport with
      bandai := commitRegs s.args.pseudoClocks s.bandai
      out := { irqEdge := commitFires s.args.pseudoClocks s.bandai } } := by
  cases h : commitFires s.args.pseudoClocks s.bandai with
  | false => exact if_neg (by simp [h])
  | true => exact if_pos h

/-- SCANLINE_START changes nothing on a variant with no interrupt (R244). -/
theorem exec_scanlineStart_of_ne_bandai {s : State} (hn : s.active ≠ .none) (hb : s.active ≠ .bandai)
    (line : BitVec 9) : exec (.scanlineStart line) s = .next s.clearReport :=
  (ready_of_ne _ _ hn).trans (congrArg _ (if_neg hb))

/-- SCANLINE_START raises the edge exactly on BANDAI with a counter that fires. -/
theorem exec_scanlineStart_edge {s : State} (hn : s.active ≠ .none) (line : BitVec 9) :
    ∃ u, exec (.scanlineStart line) s = .next u ∧
      (u.out.irqEdge = true ↔ s.active = .bandai ∧ commitFires s.args.pseudoClocks s.bandai = true) := by
  by_cases hb : s.active = .bandai
  · refine ⟨_, exec_scanlineStart_bandai hb line, ?_⟩
    simp [commit_clearReport, hb]
  · refine ⟨_, exec_scanlineStart_of_ne_bandai hn hb line, ?_⟩
    simp [hb]

/-- Settles O12: the commit of a disabled counter keeps the registers, and that of an enabled one lowers it. -/
theorem scanlineCommit : Obligations.ScanlineCommit := by
  intro s line ha
  rw [exec_scanlineStart_bandai ha, commit_clearReport]
  refine ⟨fun he => ?disabled, fun he => ?enabled⟩
  case disabled =>
    rw [commitRegs_of_disabled _ he, commitFires, he]
    rfl
  case enabled => rw [commitRegs_of_enabled _ he, commitFires, he, Bool.true_and]

/-! ## PREDICT (R242, R243) -/

/-- PREDICT's answer is whether a commit on the same state would raise the edge. -/
theorem predictAnswer_eq (s : State) :
    predictAnswer s =
      if s.active = .bandai ∧ commitFires s.args.pseudoClocks s.bandai = true then .trigger else .noTrigger := by
  by_cases hb : s.active = .bandai
  · cases he : s.bandai.irqEnable <;> simp [predictAnswer, predictCopy, commitFires, hb, he]
  · simp [predictAnswer, hb]

theorem exec_predict {s : State} (hn : s.active ≠ .none) (line : BitVec 9) :
    exec (.predict line) s = .next { s.clearReport with out := { predict := some (predictAnswer s) } } := by
  simp only [exec, execPredict]
  exact ready_of_ne _ _ hn

/-- Settles O13: PREDICT reports its answer, and the commit is BANDAI's alone. -/
theorem predictAnswers : Obligations.PredictAnswers := by
  refine fun s line hn => ⟨?answer, fun hb => exec_scanlineStart_of_ne_bandai hn hb line⟩
  rw [exec_predict hn, predictAnswer_eq]
  simp only [commitFires_iff]

/-- Settles O14: the answer and the edge have the same condition. -/
theorem predictMatchesCommit : Obligations.PredictMatchesCommit := by
  intro s line line' hn
  obtain ⟨u, hu, hedge⟩ := exec_scanlineStart_edge hn line'
  refine ⟨_, u, exec_predict hn line, hu, ?_, rfl⟩
  simp [hedge, predictAnswer_eq]

/-! ## Runs of instructions -/

theorem runInstrs_cons {i : Instr} {l : List Instr} {s t : State} :
    runInstrs (i :: l) s = some t ↔ ∃ u, exec i s = .next u ∧ runInstrs l u = some t := by
  cases h : exec i s <;> simp [runInstrs, h]

/-- What every instruction of a list keeps, the run of the list keeps. -/
theorem runInstrs_keeps {P : State → Prop} {l : List Instr} {s t : State}
    (hstep : ∀ i ∈ l, ∀ u v, exec i u = .next v → P u → P v) (h : runInstrs l s = some t) (hs : P s) : P t := by
  induction l generalizing s with
  | nil => exact Option.some.inj h ▸ hs
  | cons i l ih =>
    obtain ⟨u, hu, hl⟩ := runInstrs_cons.mp h
    exact ih (fun j hj => hstep j (.tail i hj)) hl (hstep i (.head l) s u hu hs)

theorem commitCount_cons (i : Instr) (l : List Instr) :
    commitCount (i :: l) = i.isCommit.toNat + commitCount l := by
  cases h : i.isCommit <;> simp [commitCount, h, Nat.add_comm]

theorem eq_scanlineStart_of_isCommit {i : Instr} (h : i.isCommit = true) : ∃ line, i = .scanlineStart line := by
  cases i
  case scanlineStart line => exact ⟨line, rfl⟩
  all_goals simp [Instr.isCommit] at h

theorem isInit_of_not_rearms {i : Instr} (h : ¬i.Rearms) : i.isInit = false := by
  simp only [Instr.Rearms, not_or, List.mem_cons] at h
  simp [Instr.isInit, h]

/-! ## The look-ahead (R247) -/

/-- Which commit from now on raises the edge: the max(1, ⌈C / D⌉)-th while the counter is enabled, and 0 for none. -/
def commitsToEdge (d : Nat) (r : BandaiRegs) : Nat :=
  if r.irqEnable then max 1 (r.irqCounter.toNat ⌈/⌉ d) else 0

/-- Only the counter and its enable matter. -/
theorem commitsToEdge_congr (d : Nat) {r r' : BandaiRegs} (hc : r'.irqCounter = r.irqCounter)
    (he : r'.irqEnable = r.irqEnable) : commitsToEdge d r' = commitsToEdge d r := by
  simp only [commitsToEdge, hc, he]

/-- The counter fires exactly when the edge is due at the next commit. -/
theorem commitFires_iff_commitsToEdge {d : Nat} (hd : 1 ≤ d) (r : BandaiRegs) :
    commitFires d r = true ↔ commitsToEdge d r = 1 := by
  have hceil : r.irqCounter.toNat ⌈/⌉ d ≤ 1 ↔ r.irqCounter.toNat ≤ d := by
    rw [ceilDiv_le_iff_le_mul hd, Nat.mul_one]
  rw [commitFires_iff, commitsToEdge, ← hceil]
  cases r.irqEnable <;> simp

/-- A commit brings the edge one commit nearer. -/
theorem commitsToEdge_commitRegs {d : Nat} (hd : 1 ≤ d) (r : BandaiRegs) :
    commitsToEdge d (commitRegs d r) = commitsToEdge d r - 1 := by
  cases he : r.irqEnable with
  | false => simp [commitRegs_of_disabled d he, commitsToEdge, he]
  | true =>
    by_cases hc : r.irqCounter.toNat ≤ d
    · have hf : commitFires d r = true := (commitFires_iff d r).mpr ⟨he, hc⟩
      rw [(commitFires_iff_commitsToEdge hd r).mp hf]
      simp [commitsToEdge, commitRegs_enable, hf]
    · have hf : commitFires d r = false := by simp [commitFires, hc]
      have hceil : (r.irqCounter.toNat - d) ⌈/⌉ d + 1 = r.irqCounter.toNat ⌈/⌉ d := by
        rw [Nat.ceilDiv_eq_add_pred_div, Nat.ceilDiv_eq_add_pred_div, ← Nat.add_div_right _ hd]
        congr 1
        omega
      have hpos : 1 ≤ (r.irqCounter.toNat - d) ⌈/⌉ d := by
        rw [Nat.ceilDiv_eq_add_pred_div]
        exact Nat.div_pos (by omega) hd
      simp only [commitsToEdge, commitRegs_enable, commitRegs_counter d r he, he, hf, Bool.not_false, Bool.and_self,
        if_true]
      omega

/-- Beside a port-10 write, LOAD, RESET and INIT only a commit brings the edge nearer. -/
theorem exec_commitsToEdge {i : Instr} {s t : State} (ha : s.active = .bandai) (hd : 1 ≤ s.args.pseudoClocks)
    (hi : ¬i.Rearms) (h : exec i s = .next t) :
    commitsToEdge s.args.pseudoClocks t.bandai = commitsToEdge s.args.pseudoClocks s.bandai - i.isCommit.toNat := by
  cases hc : i.isCommit with
  | false =>
    obtain ⟨hcounter, henable⟩ := (exec_writesOnlyItsOwn h).counter hc hi
    exact commitsToEdge_congr _ hcounter henable
  | true =>
    obtain ⟨line, rfl⟩ := eq_scanlineStart_of_isCommit hc
    rw [exec_scanlineStart_bandai ha, commit_clearReport] at h
    rw [← Host.Outcome.next.inj h]
    exact commitsToEdge_commitRegs hd s.bandai

/-- A run brings the edge nearer by its number of commits. -/
theorem runInstrs_commitsToEdge {l : List Instr} {s t : State} (ha : s.active = .bandai)
    (hd : 1 ≤ s.args.pseudoClocks) (hl : ∀ i ∈ l, ¬i.Rearms) (h : runInstrs l s = some t) :
    t.active = .bandai ∧ t.args = s.args ∧
      commitsToEdge s.args.pseudoClocks t.bandai = commitsToEdge s.args.pseudoClocks s.bandai - commitCount l := by
  induction l generalizing s with
  | nil =>
    cases h
    exact ⟨ha, rfl, rfl⟩
  | cons i l ih =>
    obtain ⟨hi, hl⟩ := List.forall_mem_cons.mp hl
    obtain ⟨u, hu, hrun⟩ := runInstrs_cons.mp h
    have w := exec_writesOnlyItsOwn hu
    have hactive : u.active = .bandai := (w.config (isInit_of_not_rearms hi)).2.trans ha
    obtain ⟨hta, htargs, hedge⟩ := ih hactive (w.args ▸ hd) hl hrun
    rw [w.args] at htargs hedge
    refine ⟨hta, htargs, ?_⟩
    rw [hedge, exec_commitsToEdge ha hd hi hu, commitCount_cons, Nat.sub_sub]

/-- RESET leaves a disabled counter disabled. -/
theorem resetBlock_irqEnable {s : State} (hs : s.bandai.irqEnable = false) :
    (resetBlock s).bandai.irqEnable = false := by
  unfold resetBlock resetAudio resetMapper pushView
  cases s.active <;> cases s.cart.audioOption <;> simp [hs, bandaiReset]

/-- Every instruction that may not enable the counter leaves it disabled. -/
theorem exec_keeps_disabled {i : Instr} {s t : State} (hi : ¬i.MayEnable) (h : exec i s = .next t)
    (hs : s.bandai.irqEnable = false) : t.bandai.irqEnable = false := by
  cases i
  case bandaiIrqctl a v =>
    have hv : v.toNat % 2 ≠ 1 := fun hv => hi (.inl ⟨a, v, rfl, hv⟩)
    obtain ⟨-, rfl | ⟨-, rfl⟩⟩ := exec_bandaiIrqctl_inv a v h
    · exact hs
    · simp [bandaiIrqctl, bit0_eq, hv]
  case scanlineStart line =>
    obtain ⟨-, ⟨-, rfl⟩ | ⟨-, rfl⟩⟩ := exec_scanlineStart_inv line h
    · exact hs
    · simp [commit_clearReport, commitRegs_of_disabled, hs]
  case reset =>
    obtain ⟨-, rfl⟩ := exec_reset_inv h
    exact resetBlock_irqEnable hs
  case load => exact absurd (.inr rfl) hi
  case init id prg chr mirror audio =>
    obtain ⟨-, -, -, -, ⟨-, rfl⟩ | ⟨-, -, -, rfl⟩⟩ := exec_init_inv id prg chr mirror audio h
    · rfl
    · exact hs
  all_goals
    exact ((exec_writesOnlyItsOwn h).counter (by simp [Instr.isCommit]) (by simp [Instr.Rearms])).2.trans hs

/-- Settles O15: the run brings the edge nearer by its number of commits, so the next commit fires exactly if the edge was due
one commit later; a disabled counter stays disabled. -/
theorem commitLookAhead : Obligations.CommitLookAhead := by
  refine ⟨fun s t l line ha he hd hl h => ?enabled, fun s t u l line hs hl h hu => ?disabled⟩
  case enabled =>
    obtain ⟨hta, htargs, hedge⟩ := runInstrs_commitsToEdge ha hd hl h
    obtain ⟨u, hu, hfires⟩ := exec_scanlineStart_edge (hta.trans_ne (by decide)) line
    refine ⟨u, hu, ?_⟩
    rw [hfires, htargs, commitFires_iff_commitsToEdge hd, hedge, ← Nat.ceilDiv_eq_add_pred_div]
    simp only [hta, true_and, commitsToEdge, he, if_true]
    omega
  case disabled =>
    have ht : t.bandai.irqEnable = false := runInstrs_keeps (fun i hi _ _ => exec_keeps_disabled (hl i hi)) h hs
    obtain ⟨hn, -⟩ := exec_scanlineStart_inv line hu
    obtain ⟨u', hu', hfires⟩ := exec_scanlineStart_edge hn line
    obtain rfl : u = u' := Host.Outcome.next.inj (hu.symm.trans hu')
    rw [Bool.eq_false_iff, ne_eq, hfires, commitFires_iff]
    simp [ht]

end Sys2Proof.Machine
end

section

/-! PROOFS. One tile of the renderer in arithmetic: its reads, its pixels and its latch call (44_bg_renderer.md R264 to R273). -/

namespace Sys2Proof.Machine

/-! ## The cursor's fields and the reads of a tile in arithmetic (R264 to R268) -/

theorem tileCx_eq (v : BitVec 15) (i : Nat) : tileCx v i = lineColumn v i := by
  simp [tileCx, tileCol, coarseX, lineColumn, BitVec.extractLsb'_toNat]

theorem coarseY_toNat (v : BitVec 15) : (coarseY v).toNat = lineRow v := by
  simp [coarseY, lineRow, BitVec.extractLsb'_toNat, Nat.shiftRight_eq_div_pow]

theorem toNat_xor (a b : Bool) : (a ^^ b).toNat = (a.toNat + b.toNat) % 2 := by
  cases a <;> cases b <;> rfl

/-- A line has no column beyond 63, so the name table toggles at most once. -/
theorem tileNt_eq (v : BitVec 15) {i : Nat} (hi : i < 33) : tileNt v i = lineTable v i := by
  have hcol : tileCol v i = v.toNat % 32 + i := by simp [tileCol, coarseX, BitVec.extractLsb'_toNat]
  have hv : (ntV v).toNat = v.toNat / 2048 % 2 := Nat.toNat_testBit v.toNat 11
  have hh : (ntH v).toNat = v.toNat / 1024 % 2 := Nat.toNat_testBit v.toNat 10
  have hwrap : (decide (32 ≤ v.toNat % 32 + i)).toNat = (v.toNat % 32 + i) / 32 := by
    by_cases h : 32 ≤ v.toNat % 32 + i <;> simp [h] <;> omega
  apply BitVec.eq_of_toNat_eq
  rw [tileNt, lineTable, append_toNat, BitVec.toNat_ofBool, BitVec.toNat_ofBool, toNat_xor, hcol, hv, hh, hwrap,
    BitVec.toNat_ofNat]
  omega

theorem tileIndex_eq (s : State) (v : BitVec 15) {i : Nat} (hi : i < 33) : tileIndex v s i = lineTile s v i := by
  rw [tileIndex, tileNt_eq v hi, tileOffset, coarseY_toNat, tileCx_eq, lineTile]

theorem and_two_eq (n : Nat) : n &&& 2 = n / 2 % 2 * 2 := by
  simpa [Nat.toNat_testBit] using Nat.and_two_pow n 1

/-- Bit 1 of the row goes to bit 2 and bit 1 of the column to bit 1. -/
theorem attrShift_eq (cy cx : Nat) : attrShift cy cx = cy / 2 % 2 * 4 + cx / 2 % 2 * 2 := by
  have h : (cy / 2 % 2 * 2) <<< 1 = (cy / 2 % 2) <<< 2 := by simp only [Nat.shiftLeft_eq]; omega
  rw [attrShift, and_two_eq, and_two_eq, h, ← Nat.shiftLeft_add_eq_or_of_lt (by omega), Nat.shiftLeft_eq]

theorem tileGroup_eq (s : State) (v : BitVec 15) {i : Nat} (hi : i < 33) : tileGroup v s i = lineGroup s v i := by
  rw [tileGroup, lineGroup, attrGroup, attrShift_eq, attrOffset, tileNt_eq v hi, coarseY_toNat, tileCx_eq]
  simp only [Nat.shiftRight_eq_div_pow]
  exact Nat.and_two_pow_sub_one_eq_mod _ 2

theorem patternAddr_eq (bgSel : Bool) (t : Byte) :
    patternAddr bgSel t = BitVec.ofNat 14 (bgSel.toNat * 4096 + t.toNat * 16) := by
  have ht : t.toNat * 16 < 2 ^ 12 := by have := t.isLt; omega
  apply BitVec.eq_of_toNat_eq
  cases bgSel
  case false => simp [patternAddr, Nat.shiftLeft_eq]
  case true =>
    have hdisjoint : 4096 + t.toNat * 16 = 4096 ||| t.toNat * 16 := Nat.two_pow_add_eq_or_of_lt ht 1
    have hlow : t.toNat * 16 % 16384 = t.toNat * 16 := Nat.mod_eq_of_lt (by omega)
    simp [patternAddr, Nat.shiftLeft_eq, hlow, hdisjoint]

theorem patternAddr_toNat (bgSel : Bool) (t : Byte) :
    (patternAddr bgSel t).toNat = bgSel.toNat * 4096 + t.toNat * 16 := by
  have := t.isLt
  have := bgSel.toNat_le
  rw [patternAddr_eq, BitVec.toNat_ofNat, Nat.mod_eq_of_lt (by omega)]

theorem fineY_zeroExtend (v : BitVec 15) : (fineY v).zeroExtend 14 = BitVec.ofNat 14 (v.toNat / 4096) := by
  have := v.isLt
  apply BitVec.eq_of_toNat_eq
  simp only [fineY, BitVec.toNat_setWidth, BitVec.extractLsb'_toNat, Nat.shiftRight_eq_div_pow, BitVec.toNat_ofNat]
  omega

theorem pixelColour_eq (lo hi : Byte) (p : Nat) :
    pixelColour lo hi p = lo.toNat / 2 ^ (7 - p) % 2 + 2 * (hi.toNat / 2 ^ (7 - p) % 2) := by
  simp only [pixelColour, Nat.and_one_is_mod, Nat.shiftRight_eq_div_pow]
  rw [Nat.or_comm, ← Nat.shiftLeft_add_eq_or_of_lt (by omega)]
  omega

/-! ## Drawing (R270 to R273) -/

theorem writePixel_getElem (pixels : Vector Byte 256) (x : Nat) (b : Byte) (y : Fin 256) :
    (writePixel pixels x b)[y.val] = if x = y.val then b else pixels[y.val] := by
  unfold writePixel
  split
  · rw [Vector.getElem_set]
  · rw [if_neg (by omega)]

section
variable (fineX : BitVec 3) (leftClip : Bool) (i group : Nat) (lo hi : Byte) (pixels : Vector Byte 256) (x : Fin 256)

/-- Pixel p of tile i is the LINE pixel x with x + fine_x = 8i + p. -/
theorem drawPixel_getElem {p : Nat} (hp : p < 8) :
    (drawPixel fineX leftClip i group lo hi pixels p)[x.val] =
      if ((x.val + fineX.toNat) / 8 = i ∧ (x.val + fineX.toNat) % 8 = p) ∧
        pixelColour lo hi p ≠ 0 ∧ ¬(leftClip = true ∧ x.val < 8)
      then BitVec.ofNat 8 (group * 4 + pixelColour lo hi p) else pixels[x.val] := by
  by_cases hx : (x.val + fineX.toNat) / 8 = i ∧ (x.val + fineX.toNat) % 8 = p
  · have hcol : 8 * (i : Int) + p - fineX.toNat = (x.val : Int) := by omega
    have hlt := x.isLt
    have h0 : (0 : Int) ≤ x.val := by omega
    have h255 : (x.val : Int) ≤ 255 := by omega
    have h8 : (x.val : Int) < 8 ↔ x.val < 8 := by omega
    simp only [drawPixel, hcol, hx, h0, h255, h8, true_and]
    split
    · rw [writePixel_getElem, if_pos (Int.toNat_natCast _)]
    · rfl
  · simp only [drawPixel, hx, false_and, if_false]
    split
    · rw [writePixel_getElem, if_neg (by omega)]
    · rfl

/-- After its first n pixels, tile i has drawn the columns x with x + fine_x = 8i + p and p < n. -/
theorem foldl_drawPixel_getElem {n : Nat} (hn : n ≤ 8) :
    ((List.range n).foldl (drawPixel fineX leftClip i group lo hi) pixels)[x.val] =
      if ((x.val + fineX.toNat) / 8 = i ∧ (x.val + fineX.toNat) % 8 < n) ∧
        pixelColour lo hi ((x.val + fineX.toNat) % 8) ≠ 0 ∧ ¬(leftClip = true ∧ x.val < 8)
      then BitVec.ofNat 8 (group * 4 + pixelColour lo hi ((x.val + fineX.toNat) % 8)) else pixels[x.val] := by
  induction n with
  | zero => simp
  | succ n ih =>
    rw [List.range_succ, List.foldl_append, List.foldl_cons, List.foldl_nil, drawPixel_getElem _ _ _ _ _ _ _ _ hn,
      ih (by omega)]
    by_cases hp : (x.val + fineX.toNat) % 8 = n
    · simp [hp]
    · simp only [hp, and_false, false_and, if_false, Nat.lt_succ_iff_lt_or_eq, or_false]

theorem drawTile_getElem :
    (drawTile fineX leftClip i group lo hi pixels)[x.val] =
      if (x.val + fineX.toNat) / 8 = i ∧
        pixelColour lo hi ((x.val + fineX.toNat) % 8) ≠ 0 ∧ ¬(leftClip = true ∧ x.val < 8)
      then BitVec.ofNat 8 (group * 4 + pixelColour lo hi ((x.val + fineX.toNat) % 8)) else pixels[x.val] := by
  have hp : (x.val + fineX.toNat) % 8 < 8 := Nat.mod_lt _ (by decide)
  simp only [drawTile, foldl_drawPixel_getElem _ _ _ _ _ _ _ _ (Nat.le_refl 8), hp, and_true]

end

/-! ## The tile's latch call (R269) -/

theorem SameBesideLine.lineTile {s t : State} (h : SameBesideLine s t) (v : BitVec 15) (i : Nat) :
    lineTile t v i = lineTile s v i := by
  rw [h]
  rfl

theorem SameBesideLine.lineGroup {s t : State} (h : SameBesideLine s t) (v : BitVec 15) (i : Nat) :
    lineGroup t v i = lineGroup s v i := by
  rw [h]
  rfl

theorem latchCheck_sameBesideLine (p : PpuAddr) (s : State) : SameBesideLine s (latchCheck p s) := by
  unfold SameBesideLine
  rw [latchCheck_frame]

@[simp] theorem latchCheck_line (p : PpuAddr) (s : State) : (latchCheck p s).line = s.line := by
  rw [latchCheck_frame]

/-- PPU_LATCH does not look at LINE. -/
theorem latchCheck_withLine (p : PpuAddr) (s : State) (pixels : Vector Byte 256) :
    latchCheck p { s with line := pixels } = { latchCheck p s with line := pixels } := by
  unfold latchCheck
  split <;> rfl

theorem latchCheck_clearReport (p : PpuAddr) (s : State) :
    latchCheck p s.clearReport = (latchCheck p s).clearReport := by
  unfold latchCheck
  rw [apply_ite State.clearReport]
  rfl

/-- A tile's latch call is the PPU_LATCH of its pattern address if it is a trigger tile. -/
theorem tileLatch_eq (v : BitVec 15) (bgSel : Bool) (s : State) {i : Nat} (hi : i < 33) :
    tileLatch v bgSel s i =
      if isTrigger (lineTile s v i) = true then latchCheck (patternAddr bgSel (lineTile s v i)) s else s := by
  rw [tileLatch, tileIndex_eq s v hi]
  cases hs : latchSensitive s.active with
  | true => simp
  | false => simp [latchCheck, hs]

/-- The address of a row's low plane byte. -/
theorem rowAddr_eq (v : BitVec 15) (bgSel : Bool) (t : Byte) :
    patternAddr bgSel t + (fineY v).zeroExtend 14 =
      BitVec.ofNat 14 (bgSel.toNat * 4096 + t.toNat * 16 + v.toNat / 4096) := by
  rw [patternAddr_eq, fineY_zeroExtend]
  exact (BitVec.ofNat_add _ _).symm

/-- The address of a row's high plane byte. -/
theorem rowAddr_high_eq (v : BitVec 15) (bgSel : Bool) (t : Byte) :
    patternAddr bgSel t + 8 + (fineY v).zeroExtend 14 =
      BitVec.ofNat 14 (bgSel.toNat * 4096 + t.toNat * 16 + v.toNat / 4096 + 8) := by
  rw [add_right_comm, rowAddr_eq]
  exact (BitVec.ofNat_add _ _).symm

/-- The plane bytes that the walk reads for tile i give the pixel's colour. -/
theorem pixelColour_patRead (s : State) (v : BitVec 15) (bgSel : Bool) (i p : Nat) :
    pixelColour (patRead s (patternAddr bgSel (lineTile s v i) + (fineY v).zeroExtend 14))
      (patRead s (patternAddr bgSel (lineTile s v i) + 8 + (fineY v).zeroExtend 14)) p = lineColour s v bgSel i p := by
  rw [pixelColour_eq, rowAddr_eq, rowAddr_high_eq, lineColour]

/-- A pixel does not depend on what LINE held. -/
theorem linePixel_withLine (s : State) (pixels : Vector Byte 256) (v : BitVec 15) (fineX : BitVec 3)
    (bgSel leftClip : Bool) (x : Nat) :
    linePixel { s with line := pixels } v fineX bgSel leftClip x = linePixel s v fineX bgSel leftClip x := rfl

/-- Tile i draws its pixels in the state after its own latch call. -/
theorem renderTile_getElem (v : BitVec 15) (fineX : BitVec 3) (bgSel leftClip : Bool) (s : State) {i : Nat}
    (hi : i < 33) (x : Fin 256) (h0 : (x.val + fineX.toNat) / 8 = i → s.line[x.val] = 0) :
    (renderTile v fineX bgSel leftClip s i).line[x.val] =
      if (x.val + fineX.toNat) / 8 = i then linePixel (tileLatch v bgSel s i) v fineX bgSel leftClip x.val
      else s.line[x.val] := by
  have hframe : SameBesideLine s (tileLatch v bgSel s i) := by
    unfold SameBesideLine
    rw [tileLatch_frame]
  have hline : (tileLatch v bgSel s i).line = s.line := by rw [tileLatch_frame]
  simp only [renderTile, tileIndex_eq s v hi, tileGroup_eq s v hi, ← hframe.lineTile, ← hframe.lineGroup,
    drawTile_getElem, pixelColour_patRead, hline]
  by_cases hx : (x.val + fineX.toNat) / 8 = i
  · simp only [hx, h0 hx, linePixel, true_and, if_true, ← not_or, ite_not]
  · simp only [hx, false_and, if_false]

end Sys2Proof.Machine
end

section

/-! PROOFS. The renderer's walk as latch calls and pixels, and its agreement with the PPU_LATCH transactions
(44_bg_renderer.md R262, R264, R269, R279). -/

namespace Sys2Proof.Machine

/-! ## The walk -/

/-- The trigger tiles among the first `n` tiles of a line. -/
def triggersBefore (s : State) (v : BitVec 15) (n : Nat) : List Byte :=
  ((List.range n).map (lineTile s v)).filter isTrigger

theorem triggersBefore_succ (s : State) (v : BitVec 15) (n : Nat) :
    triggersBefore s v (n + 1) =
      triggersBefore s v n ++ if isTrigger (lineTile s v n) = true then [lineTile s v n] else [] := by
  simp [triggersBefore, List.range_succ, List.filter_singleton]

/-- The state after the latch calls of a list of tiles. -/
def latchTiles (bgSel : Bool) (tiles : List Byte) (s : State) : State :=
  tiles.foldl (fun u t => latchCheck (patternAddr bgSel t) u) s

theorem latchTiles_sameBesideLine (bgSel : Bool) (tiles : List Byte) (s : State) :
    SameBesideLine s (latchTiles bgSel tiles s) := by
  induction tiles generalizing s with
  | nil => exact .refl s
  | cons t rest ih => exact (latchCheck_sameBesideLine _ s).trans (ih _)

@[simp] theorem latchTiles_line (bgSel : Bool) (tiles : List Byte) (s : State) :
    (latchTiles bgSel tiles s).line = s.line := by
  induction tiles generalizing s with
  | nil => rfl
  | cons t rest ih => exact (ih _).trans (latchCheck_line _ s)

/-- The state, but for LINE, after the first `n` tiles of a line. -/
def afterTiles (s : State) (v : BitVec 15) (bgSel : Bool) (n : Nat) : State :=
  latchTiles bgSel (triggersBefore s v n) s

/-- The latch calls leave the tiles of the line, so tile n's call is that of the tile in the first state. -/
theorem tileLatch_afterTiles (s : State) (v : BitVec 15) (bgSel : Bool) {n : Nat} (hn : n < 33) :
    tileLatch v bgSel (afterTiles s v bgSel n) n = afterTiles s v bgSel (n + 1) := by
  rw [tileLatch_eq v bgSel _ hn, afterTiles, (latchTiles_sameBesideLine _ _ _).lineTile, afterTiles, triggersBefore_succ]
  split <;> simp [latchTiles]

theorem tileLatch_withLine (v : BitVec 15) (bgSel : Bool) (s : State) (pixels : Vector Byte 256) (i : Nat) :
    tileLatch v bgSel { s with line := pixels } i = { tileLatch v bgSel s i with line := pixels } := by
  unfold tileLatch
  simp only [show tileIndex v { s with line := pixels } i = tileIndex v s i from rfl, latchCheck_withLine]
  split <;> rfl

/-- LINE after the first `n` tiles. -/
def walkedLine (s : State) (v : BitVec 15) (fineX : BitVec 3) (bgSel leftClip : Bool) (n : Nat) : Vector Byte 256 :=
  Vector.ofFn fun x =>
    if (x.val + fineX.toNat) / 8 < n then
      linePixel (afterTiles s v bgSel ((x.val + fineX.toNat) / 8 + 1)) v fineX bgSel leftClip x.val
    else 0

theorem walkedLine_zero (s : State) (v : BitVec 15) (fineX : BitVec 3) (bgSel leftClip : Bool) :
    walkedLine s v fineX bgSel leftClip 0 = lineFill :=
  vector_ext_fin fun x => by simp [walkedLine, lineFill]

/-- Tile n is the next latch call and the next eight pixels. -/
theorem renderTile_afterTiles (s : State) (v : BitVec 15) (fineX : BitVec 3) (bgSel leftClip : Bool) {n : Nat}
    (hn : n < 33) :
    renderTile v fineX bgSel leftClip
        { afterTiles s v bgSel n with line := walkedLine s v fineX bgSel leftClip n } n =
      { afterTiles s v bgSel (n + 1) with line := walkedLine s v fineX bgSel leftClip (n + 1) } := by
  obtain ⟨u, hu⟩ : ∃ u, u = { afterTiles s v bgSel n with line := walkedLine s v fineX bgSel leftClip n } := ⟨_, rfl⟩
  have hlatch : tileLatch v bgSel u n =
      { afterTiles s v bgSel (n + 1) with line := walkedLine s v fineX bgSel leftClip n } := by
    rw [hu, tileLatch_withLine, tileLatch_afterTiles s v bgSel hn]
  have hline : (renderTile v fineX bgSel leftClip u n).line = walkedLine s v fineX bgSel leftClip (n + 1) := by
    refine vector_ext_fin fun x => ?_
    rw [renderTile_getElem v fineX bgSel leftClip u hn x fun hx => by simp [hu, walkedLine, hx], hlatch]
    simp only [hu, walkedLine, Vector.getElem_ofFn]
    obtain hx | hx | hx := Nat.lt_trichotomy ((x.val + fineX.toNat) / 8) n
    · rw [if_neg (by omega), if_pos hx, if_pos (by omega)]
    · rw [if_pos hx, if_pos (by omega), hx, linePixel_withLine]
    · rw [if_neg (by omega), if_neg (by omega), if_neg (by omega)]
  rw [← hu, ← hline]
  exact congrArg (fun w : State => { w with line := (renderTile v fineX bgSel leftClip u n).line }) hlatch

/-- The walk over the first `n` tiles. -/
theorem foldl_renderTile (s : State) (v : BitVec 15) (fineX : BitVec 3) (bgSel leftClip : Bool) {n : Nat}
    (hn : n ≤ 33) :
    (List.range n).foldl (renderTile v fineX bgSel leftClip) { s with line := lineFill } =
      { afterTiles s v bgSel n with line := walkedLine s v fineX bgSel leftClip n } := by
  induction n with
  | zero => rw [walkedLine_zero]; rfl
  | succ n ih =>
    rw [List.range_succ, List.foldl_append, ih (by omega)]
    exact renderTile_afterTiles s v fineX bgSel leftClip hn

/-- Every LINE pixel lies in one of the 33 tiles. -/
theorem walkedLine_getElem (s : State) (v : BitVec 15) (fineX : BitVec 3) (bgSel leftClip : Bool) (x : Fin 256) :
    (walkedLine s v fineX bgSel leftClip 33)[x.val] =
      linePixel (afterTiles s v bgSel ((x.val + fineX.toNat) / 8 + 1)) v fineX bgSel leftClip x.val := by
  simp only [walkedLine, Vector.getElem_ofFn]
  exact if_pos (by omega)

/-! ## The transactions -/

/-- RENDER_LINE with the background on is the walk over its 33 tiles. -/
theorem exec_renderLine_on {s : State} (hn : s.active ≠ .none) (v : BitVec 15) (fineX : BitVec 3)
    (bgSel leftClip : Bool) :
    exec (.renderLine v fineX bgSel leftClip true true) s = .next
      { afterTiles s.clearReport v bgSel 33 with line := walkedLine s.clearReport v fineX bgSel leftClip 33 } :=
  (ready_of_ne _ _ hn).trans (congrArg _ (foldl_renderTile s.clearReport v fineX bgSel leftClip (Nat.le_refl 33)))

/-- With the background off it fills LINE (R276). -/
theorem exec_renderLine_off {s : State} (hn : s.active ≠ .none) (v : BitVec 15) (fineX : BitVec 3)
    (bgSel leftClip : Bool) :
    exec (.renderLine v fineX bgSel leftClip false true) s =
      .next { s.clearReport with line := Vector.replicate 256 0 } :=
  ready_of_ne _ _ hn

/-- With a failed size check it takes the next free value for LINE (R277). -/
theorem exec_renderLine_unsized {s : State} (hn : s.active ≠ .none) (v : BitVec 15) (fineX : BitVec 3)
    (bgSel leftClip bgEnabled : Bool) :
    exec (.renderLine v fineX bgSel leftClip bgEnabled false) s = .next
      { s.clearReport with line := placeholderLine s.freeCount, freeCount := s.freeCount + 1 } :=
  ready_of_ne _ _ hn

/-- The PPU_LATCH transaction of a tile. -/
def latchCall (bgSel : Bool) (t : Byte) : Instr :=
  .ppuLatch (BitVec.ofNat 14 (bgSel.toNat * 4096 + t.toNat * 16))

theorem latchCalls_eq (s : State) (v : BitVec 15) (bgSel : Bool) (n : Nat) :
    latchCalls s v bgSel n = (triggersBefore s.clearReport v n).map (latchCall bgSel) := rfl

theorem exec_latchCall {s : State} (hn : s.active ≠ .none) (bgSel : Bool) (t : Byte) :
    exec (latchCall bgSel t) s = .next (latchCheck (patternAddr bgSel t) s.clearReport) := by
  rw [patternAddr_eq]
  exact ready_of_ne _ _ hn

/-- The PPU_LATCH transactions of a list of tiles make its latch calls. -/
theorem runInstrs_latchCalls {s : State} (hn : s.active ≠ .none) (hout : s.out = {}) (bgSel : Bool)
    (tiles : List Byte) :
    runInstrs (tiles.map (latchCall bgSel)) s = some (latchTiles bgSel tiles s) := by
  induction tiles generalizing s with
  | nil => rfl
  | cons t rest ih =>
    have hactive : (latchCheck (patternAddr bgSel t) s).active = s.active := by rw [latchCheck_frame]
    have hreport : (latchCheck (patternAddr bgSel t) s).out = s.out := by rw [latchCheck_frame]
    exact runInstrs_cons.mpr ⟨_, clearReport_of_out hout ▸ exec_latchCall hn bgSel t,
      ih (hactive ▸ hn) (hreport.trans hout)⟩

theorem runInstrs_afterTiles {s : State} (hn : s.active ≠ .none) (v : BitVec 15) (bgSel : Bool) (n : Nat) :
    runInstrs (latchCalls s v bgSel n) s.clearReport = some (afterTiles s.clearReport v bgSel n) := by
  rw [latchCalls_eq]
  exact runInstrs_latchCalls (s := s.clearReport) hn rfl bgSel _

/-- Settles O18: the line is `walkedLine` over the state `afterTiles`, and both are made of the PPU_LATCH transactions. -/
theorem renderLatchBeforeComposite : Obligations.RenderLatchBeforeComposite := by
  intro s v fineX bgSel leftClip hn
  refine ⟨_, _, exec_renderLine_on hn v fineX bgSel leftClip, runInstrs_afterTiles hn v bgSel 33, ?_, fun x =>
    ⟨_, runInstrs_afterTiles hn v bgSel _, walkedLine_getElem _ v fineX bgSel leftClip x⟩⟩
  rw [show s.line = (afterTiles s.clearReport v bgSel 33).line from (latchTiles_line bgSel _ s.clearReport).symm]

end Sys2Proof.Machine
end

section

/-! PROOFS. What a line leaves of the state, its values, its latches and its clipping (44_bg_renderer.md R260, R261, R273,
R276, R279). -/

namespace Sys2Proof.Machine

/-! ## Lines on which no latch moves -/

theorem latchTiles_unlatched {s : State} (ha : s.active = .bandai ∨ s.active = .sunsoft) (bgSel : Bool)
    (tiles : List Byte) : latchTiles bgSel tiles s = s := by
  induction tiles with
  | nil => rfl
  | cons t rest ih =>
    rw [latchTiles, List.foldl_cons, latchCheck_of_no_trigger (ha.elim .inl (.inr ∘ .inl))]
    exact ih

theorem triggersBefore_eq_nil {s : State} {v : BitVec 15} (h : lineTriggers s v = []) {n : Nat} (hn : n ≤ 33) :
    triggersBefore s v n = [] := by
  rw [lineTriggers, List.filter_eq_nil_iff] at h
  rw [triggersBefore, List.filter_eq_nil_iff]
  exact fun t ht => h t (List.map_subset _ (List.range_subset.mpr hn) ht)

/-- Without latches or without trigger tiles no latch call has an effect. -/
theorem afterTiles_still {s : State} {v : BitVec 15}
    (h : s.active = .bandai ∨ s.active = .sunsoft ∨ lineTriggers s v = []) (bgSel : Bool) {n : Nat} (hn : n ≤ 33) :
    afterTiles s v bgSel n = s := by
  obtain ha | h := or_assoc.mpr h
  · exact latchTiles_unlatched ha bgSel _
  · rw [afterTiles, triggersBefore_eq_nil h hn]
    rfl

/-- Settles O17: on such a line `afterTiles` is the state itself for every tile. -/
theorem renderPixels : Obligations.RenderPixels := by
  intro s v fineX bgSel leftClip hn h
  have hstill {n : Nat} (hn : n ≤ 33) : afterTiles s.clearReport v bgSel n = s.clearReport :=
    afterTiles_still (s := s.clearReport) h bgSel hn
  have hline : walkedLine s.clearReport v fineX bgSel leftClip 33 =
      Vector.ofFn fun x => linePixel s v fineX bgSel leftClip x.val :=
    vector_ext_fin fun x => by
      rw [walkedLine_getElem, hstill (by omega), Vector.getElem_ofFn]
      rfl
  rw [exec_renderLine_on hn, hstill (Nat.le_refl 33), hline]

/-- Settles O16: both lines are the fill or the placeholder alone. -/
theorem renderWithoutTiles : Obligations.RenderWithoutTiles :=
  fun _ v fineX bgSel leftClip hn =>
    ⟨exec_renderLine_off hn v fineX bgSel leftClip,
      fun bgEnabled => ⟨_, exec_renderLine_unsized hn v fineX bgSel leftClip bgEnabled, rfl⟩⟩

/-! ## The values of LINE -/

theorem lineColour_lt (s : State) (v : BitVec 15) (bgSel : Bool) (i p : Nat) : lineColour s v bgSel i p < 4 := by
  unfold lineColour
  dsimp only
  omega

theorem lineGroup_lt (s : State) (v : BitVec 15) (i : Nat) : lineGroup s v i < 4 := Nat.mod_lt _ (by decide)

/-- A pixel is 0, or its palette group and its colour. -/
theorem linePixel_range (s : State) (v : BitVec 15) (fineX : BitVec 3) (bgSel leftClip : Bool) (x : Nat) :
    linePixel s v fineX bgSel leftClip x = 0 ∨
      ∃ group colour : Nat, group ≤ 3 ∧ 1 ≤ colour ∧ colour ≤ 3 ∧
        (linePixel s v fineX bgSel leftClip x).toNat = group * 4 + colour := by
  unfold linePixel
  dsimp only
  split
  case isTrue => exact .inl rfl
  case isFalse hc =>
    have hcolour := lineColour_lt s v bgSel ((x + fineX.toNat) / 8) ((x + fineX.toNat) % 8)
    have hgroup := lineGroup_lt s v ((x + fineX.toNat) / 8)
    refine .inr ⟨lineGroup s v ((x + fineX.toNat) / 8), lineColour s v bgSel ((x + fineX.toNat) / 8)
      ((x + fineX.toNat) % 8), by omega, by omega, by omega, ?_⟩
    rw [BitVec.toNat_ofNat, Nat.mod_eq_of_lt (by omega)]

/-- Settles O19: every pixel is one `linePixel`, and the latch calls keep `SameBesideLine`. -/
theorem renderRangeAndFrame : Obligations.RenderRangeAndFrame := by
  intro s v fineX bgSel leftClip bgEnabled hn
  cases bgEnabled with
  | false =>
    exact ⟨_, exec_renderLine_off hn v fineX bgSel leftClip, fun x => .inl (by simp), rfl, fun _ => ⟨rfl, rfl⟩⟩
  | true =>
    have hframe : SameBesideLine s.clearReport { afterTiles s.clearReport v bgSel 33 with
        line := walkedLine s.clearReport v fineX bgSel leftClip 33 } := (latchTiles_sameBesideLine bgSel _ _).trans rfl
    refine ⟨_, exec_renderLine_on hn v fineX bgSel leftClip, fun x => ?_, hframe, fun ha => ?_⟩
    · rw [walkedLine_getElem]
      exact linePixel_range _ v fineX bgSel leftClip x.val
    · rw [afterTiles_still (s := s.clearReport) (or_assoc.mp (.inl ha)) bgSel (Nat.le_refl 33)]
      exact ⟨rfl, rfl⟩

/-! ## The latches after the line (R279) -/

/-- latch_h. -/
def latchOf (h : Bool) (r : MmcRegs) : Byte := if h then r.latch1 else r.latch0

theorem setLatch_latchOf (h : Bool) (r : MmcRegs) : setLatch h (latchOf h r) r = r := by
  cases h <;> rfl

theorem setLatch_last (h : Bool) (t t' : Byte) (r : MmcRegs) : setLatch h t' (setLatch h t r) = setLatch h t' r := by
  cases h <;> rfl

theorem latchOf_setLatch (h : Bool) (t : Byte) (r : MmcRegs) : latchOf h (setLatch h t r) = t := by
  cases h <;> rfl

/-- A trigger tile of the background half sets the half's latch to itself. -/
theorem latchCheck_mmc {s : State} (ha : s.active = .mmc2 ∨ s.active = .mmc4) (bgSel : Bool) {t : Byte}
    (ht : isTrigger t = true) : (latchCheck (patternAddr bgSel t) s).mmc = setLatch bgSel t s.mmc := by
  have htile := t.isLt
  have hp := patternAddr_toNat bgSel t
  have hcheck := (ready_next _ _ _).mp (exec_ppuLatch_trigger (h := bgSel) ha ht (p := patternAddr bgSel t) (by omega)
    (by omega))
  rw [latchCheck_clearReport] at hcheck
  exact (congrArg State.mmc hcheck.2).symm

/-- The latch calls of trigger tiles leave the last of them in the half's latch. -/
theorem latchTiles_mmc {s : State} (ha : s.active = .mmc2 ∨ s.active = .mmc4) (bgSel : Bool) {tiles : List Byte}
    (ht : ∀ t ∈ tiles, isTrigger t = true) :
    (latchTiles bgSel tiles s).mmc = setLatch bgSel (tiles.getLast?.getD (latchOf bgSel s.mmc)) s.mmc := by
  induction tiles generalizing s with
  | nil => exact (setLatch_latchOf bgSel s.mmc).symm
  | cons t rest ih =>
    obtain ⟨htrigger, hrest⟩ := List.forall_mem_cons.mp ht
    have hactive : (latchCheck (patternAddr bgSel t) s).active = s.active := by rw [latchCheck_frame]
    rw [latchTiles, List.foldl_cons]
    refine (ih (hactive ▸ ha) hrest).trans ?_
    rw [latchCheck_mmc ha bgSel htrigger, setLatch_last, latchOf_setLatch, List.getLast?_cons]
    rfl

/-- Settles O20: LINE aside, the state after the line is that after the calls of its trigger tiles. -/
theorem renderLatchAfterLine : Obligations.RenderLatchAfterLine := by
  intro s v fineX bgSel leftClip ha
  refine ⟨_, exec_renderLine_on (ne_none_of_mmc ha) v fineX bgSel leftClip, ?_⟩
  have hmmc : (afterTiles s.clearReport v bgSel 33).mmc =
      setLatch bgSel ((lineTriggers s v).getLast?.getD (latchOf bgSel s.mmc)) s.mmc :=
    latchTiles_mmc (s := s.clearReport) ha bgSel fun t ht => (List.mem_filter.mp ht).2
  dsimp only
  rw [hmmc]
  cases bgSel <;> exact ⟨rfl, rfl⟩

/-! ## Left clipping (R273) -/

theorem linePixel_leftClip (s : State) (v : BitVec 15) (fineX : BitVec 3) (bgSel : Bool) (x : Nat) :
    linePixel s v fineX bgSel true x = if x < 8 then 0 else linePixel s v fineX bgSel false x := by
  by_cases hx : x < 8 <;> simp [linePixel, hx]

/-- Settles O21: both lines are drawn after the same latch calls, and `linePixel` is clipped pixel by pixel. -/
theorem renderLeftClip : Obligations.RenderLeftClip := by
  intro s v fineX bgSel bgEnabled hn
  cases bgEnabled with
  | false =>
    exact ⟨_, _, exec_renderLine_off hn v fineX bgSel true, exec_renderLine_off hn v fineX bgSel false, rfl,
      fun x => by simp⟩
  | true =>
    refine ⟨_, _, exec_renderLine_on hn v fineX bgSel true, exec_renderLine_on hn v fineX bgSel false, rfl, fun x => ?_⟩
    simp only [walkedLine_getElem]
    exact linePixel_leftClip _ v fineX bgSel x.val

end Sys2Proof.Machine
end

section

/-! PROOFS. The audio registers: their writes, the decoded fields in arithmetic and the recompute (45_audio.md R300 to R312,
R330, R331). -/

namespace Sys2Proof.Machine

/-! ## Bits and fields in arithmetic -/

theorem getLsbD_eq_decide {w : Nat} (x : BitVec w) (n : Nat) : x.getLsbD n = decide (x.toNat / 2 ^ n % 2 = 1) :=
  Nat.testBit_eq_decide_div_mod_eq

theorem extractLsb'_toNat_eq {w : Nat} (x : BitVec w) (n m : Nat) :
    (x.extractLsb' n m).toNat = x.toNat / 2 ^ n % 2 ^ m := by
  rw [BitVec.extractLsb'_toNat, Nat.shiftRight_eq_div_pow]

/-- The top bit of a byte needs no remainder. -/
theorem getLsbD_seven_eq (v : Byte) : v.getLsbD 7 = decide (v.toNat / 128 = 1) := by
  rw [getLsbD_eq_decide]
  exact decide_eq_decide.mpr (by omega)

/-! ## The register writes (R308) -/

theorem squareWrite_eq (k : Fin 4) (v : Byte) (ch : SquareChannel) :
    squareWrite k v ch = { ch with
      regs := ch.regs.set k.val v k.isLt
      update := ch.update ||| BitVec.ofNat 4 (2 ^ k.val) } := by
  fin_cases k <;> rfl

theorem sawWrite_eq (k : Fin 3) (v : Byte) (ch : SawChannel) :
    sawWrite k v ch = { ch with
      regs := ch.regs.set k.val v k.isLt
      update := ch.update ||| BitVec.ofNat 3 (2 ^ k.val) } := by
  fin_cases k <;> rfl

/-- Settles O22: each instruction is the write of its register on its channel. -/
theorem audioRegisterWrites : Obligations.AudioRegisterWrites := by
  refine fun s a v hn => ⟨fun ho => ⟨?sq0, ?sq1⟩, fun ho => ?saw⟩
  case sq0 =>
    intro p hp
    have hexec : exec p.1 s = onAudio .square s fun t => { t with sq0 := squareWrite p.2 v t.sq0 } := by
      revert p
      simp only [List.forall_mem_cons]
      exact ⟨rfl, rfl, rfl, rfl, fun _ h => nomatch h⟩
    rw [hexec, onAudio_of_eq _ _ _ hn ho, squareWrite_eq, State.clearReport_sq0]
  case sq1 =>
    intro p hp
    have hexec : exec p.1 s = onAudio .square s fun t => { t with sq1 := squareWrite p.2 v t.sq1 } := by
      revert p
      simp only [List.forall_mem_cons]
      exact ⟨rfl, rfl, rfl, rfl, fun _ h => nomatch h⟩
    rw [hexec, onAudio_of_eq _ _ _ hn ho, squareWrite_eq, State.clearReport_sq1]
  case saw =>
    intro p hp
    have hexec : exec p.1 s = onAudio .saw s fun t => { t with saw := sawWrite p.2 v t.saw } := by
      revert p
      simp only [List.forall_mem_cons]
      exact ⟨rfl, rfl, rfl, fun _ h => nomatch h⟩
    rw [hexec, onAudio_of_eq _ _ _ hn ho, sawWrite_eq, State.clearReport_saw]

/-! ## The enable bits and the DA value (R307, R309) -/

/-- A disabled channel is keyed off, which restarts the release only where the key was on. -/
theorem squareEnable_eq (args : ModelArgs) (on : Bool) (ch : SquareChannel) :
    squareEnable args on ch = if on = true then { ch with enabled := true } else { ch with
      enabled := false
      length := 0
      key := false
      release := if ch.key then args.releaseStart else ch.release } := by
  cases on with
  | true => rfl
  | false => cases hk : ch.key <;> simp [squareEnable, squareKeyOff, hk]

/-- Settles O23: the bits of V are the two channels' enables. -/
theorem squareEnableAndDirectAudio : Obligations.SquareEnableAndDirectAudio := by
  intro s v hn ho
  obtain ⟨henable, hda⟩ : exec (.sqEnable v) s = execSqEnable v s ∧ exec (.sqDa v) s = execSqDa v s := ⟨rfl, rfl⟩
  rw [henable, hda, execSqEnable, execSqDa, onAudio_of_eq _ _ _ hn ho, onAudio_of_eq _ _ _ hn ho]
  refine ⟨?_, rfl⟩
  simp only [squareEnable_eq, getLsbD_eq_decide, decide_eq_true_eq, pow_zero, Nat.div_one, pow_one,
    State.clearReport_sq0, State.clearReport_sq1, State.clearReport_args]

/-! ## The square's derived record (R300, R302, R311) -/

theorem squarePeriod_toNat (regs : Vector Byte 4) :
    (squarePeriod regs).toNat = regs[3].toNat % 8 * 256 + regs[2].toNat := by
  rw [squarePeriod, append_toNat, extractLsb'_toNat_eq]
  simp

theorem lengthIndex_toNat (regs : Vector Byte 4) : (lengthIndex regs).toNat = regs[3].toNat / 8 := by
  rw [lengthIndex, extractLsb'_toNat_eq]
  omega

/-- Settles O27: every field is a quotient and remainder of its register byte. -/
theorem squareDecodeFields : Obligations.SquareDecodeFields := by
  refine ⟨fun args r0 r1 r2 r3 => ⟨_, rfl, ?duty, ?loop, ?const, ?vol, ?envStep, ?sweepEn, ?sweepStep, ?negate, ?shift,
    ?period, ?waveStep⟩, fun args r p => ⟨?env, ?envGiven, ?len, ?lenGiven, ?sweep, ?sweepGiven⟩⟩
  case duty => exact (extractLsb'_toNat_eq r0 6 2).trans (by omega)
  case loop => exact getLsbD_eq_decide r0 5
  case const => exact getLsbD_eq_decide r0 4
  case vol => exact (extractLsb'_toNat_eq r0 0 4).trans (by omega)
  case envStep =>
    simp only [squareDecode, extractLsb'_toNat_eq]
    simp
  case sweepEn => exact getLsbD_seven_eq r1
  case sweepStep =>
    simp only [squareDecode, extractLsb'_toNat_eq]
    simp
  case negate => exact getLsbD_eq_decide r1 3
  case shift => exact (extractLsb'_toNat_eq r1 0 3).trans (by omega)
  case period => exact squarePeriod_toNat _
  case waveStep => exact congrArg (fun n => (n + 1) * 2 * 2 ^ args.cpsShift) (squarePeriod_toNat _)
  case env => exact fun h => by simp [ModelArgs.envStep, h]
  case envGiven => exact fun f h => by simp [ModelArgs.envStep, h]
  case len => exact fun h => by simp [ModelArgs.lenStep, h]
  case lenGiven => exact fun n h => by simp [ModelArgs.lenStep, h]
  case sweep => exact fun h => by simp [ModelArgs.sweepStep, h]
  case sweepGiven => exact fun f h => by simp [ModelArgs.sweepStep, h]

/-! ## The square's recompute (R310, R312) -/

theorem squareGate_of_clean (args : ModelArgs) {ch : SquareChannel} (h : ch.update = 0) : squareGate args ch = ch :=
  if_neg (not_not_intro h)

theorem squareGate_of_pending (args : ModelArgs) {ch : SquareChannel} (h : ch.update ≠ 0) :
    squareGate args ch = { squareRecompute args ch with update := 0 } := if_pos h

/-- Settles O26: the recompute keys on where bit 3 and the enable are both set, and restarts the sweep on bit 1. -/
theorem squareRecompute_holds : Obligations.SquareRecompute := by
  refine fun args ch => ⟨squareGate_of_clean args, fun hu h3 he => ?keyOn, fun hu h => ?noKeyOn⟩
  case keyOn =>
    have hbit : ch.update.getLsbD 3 = true := (getLsbD_eq_decide _ _).trans (decide_eq_true h3)
    rw [squareGate_of_pending args hu, squareRecompute]
    cases h1 : ch.update.getLsbD 1 <;> simp [squareKeyOn, lengthIndex_toNat, hbit, h1, he]
  case noKeyOn =>
    have hbit : (ch.update.getLsbD 3 && ch.enabled) = false := by
      rw [getLsbD_eq_decide, Bool.and_eq_false_imp]
      intro h3
      have := of_decide_eq_true h3
      exact h.resolve_left (by omega)
    rw [squareGate_of_pending args hu, squareRecompute]
    simp only [hbit, Bool.false_eq_true, if_false]
    simp only [getLsbD_eq_decide, decide_eq_true_eq, pow_one]
    split <;> rfl

/-! ## The saw's recompute (R330, R331) -/

theorem sawPeriod_toNat (regs : Vector Byte 3) :
    (sawPeriod regs).toNat = regs[2].toNat % 16 * 256 + regs[1].toNat := by
  rw [sawPeriod, append_toNat, extractLsb'_toNat_eq]
  simp

theorem sawGate_of_clean (args : ModelArgs) {ch : SawChannel} (h : ch.update = 0) : sawGate args ch = ch :=
  if_neg (not_not_intro h)

theorem sawGate_of_pending (args : ModelArgs) {ch : SawChannel} (h : ch.update ≠ 0) :
    sawGate args ch = { sawRecompute args ch with update := 0 } := if_pos h

/-- Settles O33: the decoded enable bit against the key decides between key-on, key-off and neither. -/
theorem sawRecompute_holds : Obligations.SawRecompute := by
  rintro args ch d rfl
  refine ⟨?rate, sawPeriod_toNat _, getLsbD_seven_eq _, rfl, sawGate_of_clean args, fun hu he hk => ?keyOn,
    fun hu he hk => ?keyOff, fun hu he => ?keep⟩
  case rate => exact (extractLsb'_toNat_eq ch.regs[0] 0 6).trans (by omega)
  all_goals rw [sawGate_of_pending args hu, sawRecompute]
  case keyOn => simp [he, hk]
  case keyOff => simp [he, hk]
  case keep => cases hk : ch.key <;> simp [he, hk]

end Sys2Proof.Machine
end

section

/-! PROOFS. The stages of a square channel in arithmetic: envelope, length counter, sweep, mute and wave (45_audio.md R322 to
R327). -/

namespace Sys2Proof.Machine

/-! ## The envelope (R322) -/

/-- Without the loop the clocks stop at 0. -/
theorem envelopeClocks_stopping (k vol : Nat) : envelopeClocks false k vol = vol - k := by
  induction k generalizing vol with
  | zero => rfl
  | succ k ih =>
    have hclock : envelopeClock false vol = vol - 1 := by
      cases vol <;> rfl
    rw [envelopeClocks, hclock, ih, Nat.sub_sub, Nat.add_comm]

/-- With the loop the clocks count down in 4 bits. -/
theorem envelopeClocks_wrapping (k : Nat) (vol : BitVec 4) :
    envelopeClocks true k vol.toNat = (vol - BitVec.ofNat 4 k).toNat := by
  induction k generalizing vol with
  | zero => simp [envelopeClocks]
  | succ k ih =>
    have hclock : envelopeClock true vol.toNat = (vol - 1#4).toNat := by
      revert vol
      decide
    rw [envelopeClocks, hclock, ih, BitVec.ofNat_add, BitVec.sub_sub, BitVec.add_comm]

/-- Settles O28: in each mode the closed form is the volume after the single clocks. -/
theorem envelopeClosedForm : Obligations.EnvelopeClosedForm := by
  refine fun args ch => ⟨?_, rfl⟩
  cases hl : ch.d.loop with
  | true => simp only [squareEnvelope, hl, if_true, envelopeClocks_wrapping]
  | false =>
    simp only [squareEnvelope, hl, Bool.false_eq_true, if_false, envelopeClocks_stopping]
    exact Nat.mod_eq_of_lt (Nat.sub_lt_of_lt ch.envVol.isLt)

/-! ## The length counter (R323) -/

theorem squareLength_of_halted (args : ModelArgs) {ch : SquareChannel} (h : ch.key = false ∨ ch.d.loop = true) :
    squareLength args ch = ch :=
  if_neg (by rcases h with h | h <;> simp [h])

theorem squareLength_of_counting (args : ModelArgs) {ch : SquareChannel} (hk : ch.key = true) (hl : ch.d.loop = false) :
    squareLength args ch =
      if ch.length.toNat ≤ (ch.lenPhase + args.cps) / max 1 args.lenStep then
        { ch with
          lenPhase := (ch.lenPhase + args.cps) % max 1 args.lenStep
          length := 0
          key := false
          release := args.releaseStart }
      else
        { ch with
          lenPhase := (ch.lenPhase + args.cps) % max 1 args.lenStep
          length := BitVec.ofNat 8 (ch.length.toNat - (ch.lenPhase + args.cps) / max 1 args.lenStep) } :=
  if_pos (by simp [hk, hl])

/-- Settles O29: the counter is compared with the clocks before it is lowered. -/
theorem lengthCounter : Obligations.LengthCounter := by
  rintro args ch m rfl
  refine ⟨squareLength_of_halted args, fun hk hl hm => ?reached, fun hk hl hm => ?lowered⟩
  case reached => rw [squareLength_of_counting args hk hl, if_pos hm]
  case lowered =>
    rw [squareLength_of_counting args hk hl, if_neg (Nat.not_le_of_lt hm)]
    exact ⟨rfl, Nat.mod_eq_of_lt (Nat.sub_lt_of_lt ch.length.isLt)⟩

/-! ## The sweep (R324) -/

/-- The sweep unit is present, enabled, and has a shift to move the period by. -/
def SweepRuns (args : ModelArgs) (d : SquareDerived) : Prop := args.hasSweep = true ∧ d.sweepEn = true ∧ d.shift ≠ 0

theorem squareSweep_of_runs {args : ModelArgs} {ch : SquareChannel} (h : SweepRuns args ch.d) :
    squareSweep args ch = sweepClocks args ((ch.sweepPhase + args.cps) / ch.d.sweepStep)
      { ch with sweepPhase := (ch.sweepPhase + args.cps) % ch.d.sweepStep } := by
  obtain ⟨hp, he, hs⟩ := h
  exact if_pos (by rw [hp, he, decide_eq_true hs]; rfl)

theorem squareSweep_of_not_runs {args : ModelArgs} {ch : SquareChannel} (h : ¬SweepRuns args ch.d) :
    squareSweep args ch = ch :=
  if_neg (by simpa [SweepRuns, and_assoc] using h)

theorem sweepTarget_eq (d : SquareDerived) : sweepTarget d =
    if d.negate then d.period.toNat - d.period.toNat / 2 ^ d.shift.toNat
    else d.period.toNat + d.period.toNat / 2 ^ d.shift.toNat := by
  rw [sweepTarget, Nat.shiftRight_eq_div_pow]

theorem sweepClocks_of_stopped {args : ModelArgs} {ch : SquareChannel}
    (h : ch.d.period.toNat < args.periodFloor ∨ 0x7FF < sweepTarget ch.d) (k : Nat) : sweepClocks args k ch = ch := by
  cases k with
  | zero => rfl
  | succ k => exact if_pos h

theorem sweepClocks_succ {args : ModelArgs} {ch : SquareChannel} (hf : args.periodFloor ≤ ch.d.period.toNat)
    (ht : sweepTarget ch.d ≤ 0x7FF) (k : Nat) : sweepClocks args (k + 1) ch =
      sweepClocks args k (setSweptPeriod args (BitVec.ofNat 11 (sweepTarget ch.d)) ch) :=
  if_neg (by omega)

/-- The write-back keeps the upper bits of register 3. -/
theorem setSweptPeriod_high (args : ModelArgs) (p : BitVec 11) (ch : SquareChannel) :
    (setSweptPeriod args p ch).regs[3].toNat = ch.regs[3].toNat / 8 * 8 + p.toNat / 256 := by
  simp only [setSweptPeriod, Vector.getElem_set_self, append_toNat, extractLsb'_toNat_eq]
  omega

theorem setSweptPeriod_low (args : ModelArgs) (p : BitVec 11) (ch : SquareChannel) :
    (setSweptPeriod args p ch).regs[2].toNat = p.toNat % 256 := by
  simp [setSweptPeriod]

theorem setSweptPeriod_frame (args : ModelArgs) (p : BitVec 11) (ch : SquareChannel) :
    setSweptPeriod args p ch = { ch with
      regs := (ch.regs.set 2 (setSweptPeriod args p ch).regs[2]).set 3 (setSweptPeriod args p ch).regs[3]
      d := { ch.d with period := p, waveStep := (p.toNat + 1) * 2 * 2 ^ args.cpsShift } } := by
  simp [setSweptPeriod, squareWaveStep]

/-- Settles O30: a clock that is not the last writes its target period back. -/
theorem sweepClock : Obligations.SweepClock := by
  intro args ch p hp
  rw [← sweepTarget_eq] at hp
  subst hp
  refine ⟨?runs, sweepClocks_of_stopped, fun hf ht => ⟨_, sweepClocks_succ hf ht 0, ?_⟩⟩
  case runs =>
    split
    case isTrue h => exact squareSweep_of_runs h
    case isFalse h => exact squareSweep_of_not_runs h
  have hfit : (BitVec.ofNat 11 (sweepTarget ch.d)).toNat = sweepTarget ch.d := Nat.mod_eq_of_lt (Nat.lt_succ_of_le ht)
  rw [sweepClocks, setSweptPeriod_high, setSweptPeriod_low, hfit]
  refine ⟨by omega, by omega, ?_, sweepClocks_succ hf ht⟩
  exact (setSweptPeriod_frame ..).trans (by rw [hfit])

/-! ## The mute test (R301, R325) -/

theorem add_shifted_le_iff (shift : Fin 8) (p : Nat) : p + p / 2 ^ shift.val ≤ 0x7FF ↔ p ≤ ceilingTable[shift.val] := by
  fin_cases shift <;> simp [ceilingTable] <;> omega

theorem squareMuted_iff (args : ModelArgs) (d : SquareDerived) : squareMuted args d = true ↔
    d.period.toNat < args.periodFloor ∨
      (d.negate = false ∧ args.ceiling[d.shift.toNat]'(by omega) < d.period.toNat) := by
  simp [squareMuted]

/-- Settles O31: each entry of the table is the largest period whose step up fits. -/
theorem muteAboveCeiling : Obligations.MuteAboveCeiling := by
  refine ⟨add_shifted_le_iff, rfl, squareMuted_iff, fun args d hc => ?_⟩
  have hceiling := lt_iff_lt_of_le_iff_le (add_shifted_le_iff d.shift.toFin d.period.toNat)
  rw [squareMuted_iff]
  simp only [hc]
  exact or_congr_right (and_congr_right' hceiling.symm)

/-! ## The wave and the output (R326, R327) -/

theorem squareWave_dutyPos (args : ModelArgs) (ch : SquareChannel) : (squareWave args ch).dutyPos.toNat =
    (ch.dutyPos.toNat + (ch.wavePhase + args.cps) / ch.d.waveStep) % 8 := by
  simp [squareWave]

theorem outSq_eq_zero (args : ModelArgs) {vol r : Nat} {key : Bool} (h : vol = 0 ∨ (key = false ∧ r = 0)) :
    outSq args vol key r = 0 := if_pos h

theorem outSq_linear {args : ModelArgs} (h : args.outSq = .linear) (vol r : Nat) :
    outSq args vol true r = vol ∧
    (args.releaseStart ≠ 0 → outSq args vol false r = vol * r / args.releaseStart.toNat) := by
  by_cases hv : vol = 0
  · simp [outSq, hv]
  · by_cases hr : r = 0 <;> simp +contextual [outSq, h, hv, hr]

end Sys2Proof.Machine
end

section

/-! PROOFS. The saw channel's wave in closed form, and the output curves of both chips (45_audio.md R326, R327, R332 to R334). -/

namespace Sys2Proof.Machine

/-! ## One tick (R333) -/

theorem sawClock_wraps {ch : SawChannel} (h : ch.stepPos.toNat + 1 = 14) :
    sawClock ch = { ch with stepPos := 0, acc := 0 } :=
  if_pos (BitVec.eq_of_toNat_eq (by simp [h]))

/-- Below 14 the new position's parity decides whether the rate is added. -/
theorem sawClock_of_lt {ch : SawChannel} (h : ch.stepPos.toNat + 1 < 14) :
    sawClock ch = { ch with
      stepPos := BitVec.ofNat 4 (ch.stepPos.toNat + 1)
      acc := if ch.stepPos.toNat % 2 = 1 then BitVec.ofNat 8 (ch.acc.toNat + ch.d.rate.toNat) else ch.acc } := by
  have hpos : ch.stepPos + 1 = BitVec.ofNat 4 (ch.stepPos.toNat + 1) := by
    simp [BitVec.ofNat_add]
  have hnot : BitVec.ofNat 4 (ch.stepPos.toNat + 1) ≠ 14 := by
    simp [← BitVec.toNat_inj]
    omega
  have hadd : ch.acc + ch.d.rate.zeroExtend 8 = BitVec.ofNat 8 (ch.acc.toNat + ch.d.rate.toNat) := by
    apply BitVec.eq_of_toNat_eq
    simp
  have hodd : (BitVec.ofNat 4 (ch.stepPos.toNat + 1)).getLsbD 0 = !decide (ch.stepPos.toNat % 2 = 1) := by
    rw [getLsbD_eq_decide, ← decide_not]
    refine decide_eq_decide.mpr ?_
    rw [BitVec.toNat_ofNat]
    omega
  simp only [sawClock, hpos, hnot, if_false, hodd, hadd]
  by_cases hp : ch.stepPos.toNat % 2 = 1 <;> simp [hp]

/-! ## Many ticks (R332, R333) -/

theorem sawClocks_add (m n : Nat) (ch : SawChannel) : sawClocks (m + n) ch = sawClocks n (sawClocks m ch) := by
  induction m generalizing ch with
  | zero => rw [Nat.zero_add, sawClocks]
  | succ m ih => rw [Nat.succ_add, sawClocks, sawClocks, ih]

/-- Ticks move the position and the accumulator only. -/
theorem sawClocks_frame (n : Nat) (ch : SawChannel) : ∃ p a, sawClocks n ch = { ch with stepPos := p, acc := a } := by
  induction n generalizing ch with
  | zero => exact ⟨_, _, rfl⟩
  | succ n ih =>
    obtain ⟨p, a, hclock⟩ : ∃ p a, sawClock ch = { ch with stepPos := p, acc := a } := by
      simp only [sawClock]
      split_ifs <;> exact ⟨_, _, rfl⟩
    rw [sawClocks, hclock]
    exact ih _

/-- The channel on the ramp that begins at position 0 with a clear accumulator: at position q the rate has been added q / 2
times. -/
def sawRamp (ch : SawChannel) (q : Nat) : SawChannel :=
  { ch with stepPos := BitVec.ofNat 4 q, acc := BitVec.ofNat 8 (ch.d.rate.toNat * (q / 2)) }

theorem sawClock_sawRamp (ch : SawChannel) {q : Nat} (hq : q ≤ 13) :
    sawClock (sawRamp ch q) = sawRamp ch ((q + 1) % 14) := by
  have hpos : (sawRamp ch q).stepPos.toNat = q := Nat.mod_eq_of_lt (by omega)
  by_cases h : q + 1 = 14
  · rw [sawClock_wraps (by rw [hpos, h]), h]
    simp [sawRamp]
  · rw [sawClock_of_lt (by omega), hpos, Nat.mod_eq_of_lt (show q + 1 < 14 by omega)]
    by_cases hodd : q % 2 = 1
    · have hhalf : (q + 1) / 2 = q / 2 + 1 := by omega
      simp only [sawRamp, if_pos hodd, hhalf, Nat.mul_succ, BitVec.ofNat_add, BitVec.ofNat_toNat, BitVec.setWidth_eq]
    · have hhalf : (q + 1) / 2 = q / 2 := by omega
      simp [sawRamp, hodd, hhalf]

theorem sawClocks_sawRamp (ch : SawChannel) (n : Nat) {q : Nat} (hq : q ≤ 13) :
    sawClocks n (sawRamp ch q) = sawRamp ch ((q + n) % 14) := by
  induction n generalizing q with
  | zero => rw [sawClocks, Nat.add_zero, Nat.mod_eq_of_lt (by omega)]
  | succ n ih =>
    rw [sawClocks, sawClock_sawRamp ch hq, ih (by omega)]
    congr 1
    omega

/-- The tick that reaches 14 forgets the accumulator, so the ramp begins. -/
theorem sawClocks_to_ramp {n : Nat} {ch : SawChannel} (h : ch.stepPos.toNat + (n + 1) = 14) :
    sawClocks (n + 1) ch = sawRamp ch 0 := by
  induction n generalizing ch with
  | zero => exact (sawClock_wraps h).trans (by simp [sawRamp])
  | succ n ih =>
    rw [sawClocks, ih]
    · rw [sawClock_of_lt (by omega)]
      rfl
    · rw [sawClock_of_lt (by omega), BitVec.toNat_ofNat]
      omega

/-- Settles O34: 14 or more ticks pass the start of a ramp, and the remaining ones run along it. -/
theorem sawClockClosedForm : Obligations.SawClockClosedForm := by
  refine fun ch hp => ⟨sawClock_wraps, fun h hodd => ?odd, fun heven => ?even, ?closed⟩
  case odd => rw [sawClock_of_lt h, if_pos hodd]
  case even => rw [sawClock_of_lt (by omega), if_neg (by omega)]
  case closed =>
    rintro n q hn rfl
    obtain ⟨r, rfl⟩ : ∃ r, n = (13 - ch.stepPos.toNat + 1) + r := Nat.exists_eq_add_of_le (by omega)
    rw [sawClocks_add, sawClocks_to_ramp (by omega), sawClocks_sawRamp ch r (by omega)]
    have hq : (0 + r) % 14 = (ch.stepPos.toNat + (13 - ch.stepPos.toNat + 1 + r)) % 14 := by omega
    rw [hq]
    rfl

/-! ## The output curves (R327, R334) -/

theorem outSaw_eq_zero (args : ModelArgs) (lvl : Nat) : outSaw args lvl false 0 = 0 := if_pos ⟨rfl, rfl⟩

theorem outSaw_linear {args : ModelArgs} (h : args.outSaw = .linear) (lvl r : Nat) :
    outSaw args lvl true r = lvl ∧
    (args.releaseStart ≠ 0 → outSaw args lvl false r = lvl * r / args.releaseStart.toNat) := by
  by_cases hr : r = 0 <;> simp +contextual [outSaw, h, hr]

/-- Settles O32: the waves are read off their definitions, and the curves meet their constraints case by case. -/
theorem waveAndOutput : Obligations.WaveAndOutput := by
  refine ⟨fun args ch => ⟨rfl, squareWave_dutyPos args ch, rfl⟩, fun args ch => ⟨rfl, rfl, fun n => rfl, ?sawOut⟩,
    fun args vol r key => ⟨outSq_eq_zero args (.inl rfl), outSq_eq_zero args (.inr ⟨rfl, rfl⟩), outSaw_eq_zero args vol,
      fun h => (outSq_linear h vol r).1, fun h => (outSaw_linear h vol r).1, fun h => (outSq_linear h vol r).2,
      fun h => (outSaw_linear h vol r).2⟩⟩
  rw [sawOut, Nat.shiftRight_eq_div_pow]

end Sys2Proof.Machine
end

section

/-! PROOFS. SAMPLE: its answer, the order of a channel's stages, and what one sample leaves of a channel (45_audio.md R310,
R314, R320, R321, R328, R332, R336, R340, R342). -/

namespace Sys2Proof.Machine

/-! ## The answer (R320, R335, R336) -/

theorem exec_sample_none {s : State} (hn : s.active ≠ .none) (ho : s.cart.audioOption = .none) :
    exec .sample s = .next { s.clearReport with out := { sample := some 0 } } := by
  refine (ready_of_ne _ _ hn).trans (congrArg _ ?_)
  simp only [sampleChip, State.clearReport_cart, ho]
  rfl

theorem exec_sample_square {s : State} (hn : s.active ≠ .none) (ho : s.cart.audioOption = .square) :
    exec .sample s = .next { s.clearReport with
      sq0 := (squareStep s.args s.sq0).1
      sq1 := (squareStep s.args s.sq1).1
      out := { sample := some ((squareStep s.args s.sq0).2 + (squareStep s.args s.sq1).2 + s.da.toNat) } } := by
  refine (ready_of_ne _ _ hn).trans (congrArg _ ?_)
  simp only [sampleChip, State.clearReport_cart, ho]
  rfl

theorem exec_sample_saw {s : State} (hn : s.active ≠ .none) (ho : s.cart.audioOption = .saw) :
    exec .sample s = .next { s.clearReport with
      saw := (sawStep s.args s.saw).1
      out := { sample := some (sawStep s.args s.saw).2 } } := by
  refine (ready_of_ne _ _ hn).trans (congrArg _ ?_)
  simp only [sampleChip, State.clearReport_cart, ho]
  rfl

/-- Settles O24, one equation per audio option. -/
theorem sampleAnswers : Obligations.SampleAnswers :=
  fun _ hn => ⟨exec_sample_none hn, exec_sample_square hn, exec_sample_saw hn⟩

/-! ## The order of the stages (R314, R321, R328, R332) -/

theorem silent_or_sounding (key : Bool) (release : BitVec 16) :
    (key = false ∧ release = 0) ∨ (key = true ∨ release ≠ 0) := by
  cases key with
  | false => exact (em (release = 0)).imp (⟨rfl, ·⟩) .inr
  | true => exact .inr (.inl rfl)

theorem squareSilent_eq_false {ch : SquareChannel} (h : ch.key = true ∨ ch.release ≠ 0) : squareSilent ch = false := by
  rcases h with h | h
  · rw [squareSilent, h]
    rfl
  · rw [squareSilent, decide_eq_false h, Bool.and_false]

theorem sawSilent_eq_false {ch : SawChannel} (h : ch.key = true ∨ ch.release ≠ 0) : sawSilent ch = false := by
  rcases h with h | h
  · rw [sawSilent, h]
    rfl
  · rw [sawSilent, decide_eq_false h, Bool.and_false]

theorem squareStep_of_silent (args : ModelArgs) {ch : SquareChannel} (hk : (squareGate args ch).key = false)
    (hr : (squareGate args ch).release = 0) : squareStep args ch = (squareGate args ch, 0) :=
  if_pos (by rw [squareSilent, hk, hr]; rfl)

theorem squareStep_of_sounding (args : ModelArgs) {ch : SquareChannel}
    (h : (squareGate args ch).key = true ∨ (squareGate args ch).release ≠ 0) : squareStep args ch =
      let c := squareSweep args (squareLength args (squareEnvelope args (squareGate args ch)))
      if squareMuted args c.d then (squareRelease c, 0)
      else (squareRelease (squareWave args c), squareOut args (squareWave args c)) :=
  if_neg (by simp [squareSilent_eq_false h])

theorem sawStep_of_silent (args : ModelArgs) {ch : SawChannel} (hk : (sawGate args ch).key = false)
    (hr : (sawGate args ch).release = 0) : sawStep args ch = (sawGate args ch, 0) :=
  if_pos (by rw [sawSilent, hk, hr]; rfl)

theorem sawStep_of_sounding (args : ModelArgs) {ch : SawChannel}
    (h : (sawGate args ch).key = true ∨ (sawGate args ch).release ≠ 0) : sawStep args ch =
      (sawRelease (sawWave args (sawGate args ch)), sawOut args (sawWave args (sawGate args ch))) :=
  if_neg (by simp [sawSilent_eq_false h])

/-- The release counter does not wrap where it falls. -/
theorem release_sub_one {r : BitVec 16} (h : 0 < r.toNat) : (r - 1).toNat + 1 = r.toNat := by
  bv_omega

theorem squareRelease_of_falling {ch : SquareChannel} (hk : ch.key = false) (hr : 0 < ch.release.toNat) :
    squareRelease ch = { ch with release := ch.release - 1 } :=
  if_pos (by simp [hk, hr])

theorem squareRelease_of_still {ch : SquareChannel} (h : ch.key = true ∨ ch.release = 0) : squareRelease ch = ch :=
  if_neg (by rcases h with h | h <;> simp [h])

theorem sawRelease_of_falling {ch : SawChannel} (hk : ch.key = false) (hr : 0 < ch.release.toNat) :
    sawRelease ch = { ch with release := ch.release - 1 } :=
  if_pos (by simp [hk, hr])

theorem sawRelease_of_still {ch : SawChannel} (h : ch.key = true ∨ ch.release = 0) : sawRelease ch = ch :=
  if_neg (by rcases h with h | h <;> simp [h])

/-- Settles O25: a channel's step and its release step, case by case. -/
theorem channelStages : Obligations.ChannelStages := by
  refine ⟨?square, ?saw, fun ch => ⟨fun hk hr => ?_, squareRelease_of_still⟩,
    fun ch => ⟨fun hk hr => ?_, sawRelease_of_still⟩⟩
  case square =>
    rintro args ch g c rfl rfl
    refine ⟨squareStep_of_silent args, fun hs hm => ?muted, fun hs hm => ?played⟩ <;>
      simp only [squareStep_of_sounding args hs, hm]
    case muted => rfl
    case played => rfl
  case saw =>
    rintro args ch g rfl
    exact ⟨sawStep_of_silent args, sawStep_of_sounding args⟩
  · exact ⟨_, release_sub_one hr, squareRelease_of_falling hk hr⟩
  · exact ⟨_, release_sub_one hr, sawRelease_of_falling hk hr⟩

/-! ## What each stage leaves unchanged -/

theorem squareRelease_frame (ch : SquareChannel) : ∃ r, squareRelease ch = { ch with release := r } := by
  unfold squareRelease
  split <;> exact ⟨_, rfl⟩

theorem sawRelease_frame (ch : SawChannel) : ∃ r, sawRelease ch = { ch with release := r } := by
  unfold sawRelease
  split <;> exact ⟨_, rfl⟩

theorem squareLength_frame (args : ModelArgs) (ch : SquareChannel) : ∃ p n k r,
    squareLength args ch = { ch with lenPhase := p, length := n, key := k, release := r } ∧
    (ch.key = true → ch.d.loop = false → p = (ch.lenPhase + args.cps) % max 1 args.lenStep) := by
  by_cases h : ch.key = true ∧ ch.d.loop = false
  · rw [squareLength_of_counting args h.1 h.2]
    split <;> exact ⟨_, _, _, _, rfl, fun _ _ => rfl⟩
  · have halted : ch.key = false ∨ ch.d.loop = true := by simpa using not_and_or.mp h
    exact ⟨_, _, _, _, squareLength_of_halted args halted, fun hk hl => absurd ⟨hk, hl⟩ h⟩

/-- Sweep clocks move registers 2 and 3, the period and the wave step, which stays at least 1. -/
theorem sweepClocks_frame (args : ModelArgs) (k : Nat) (ch : SquareChannel) : ∃ regs p w,
    sweepClocks args k ch = { ch with regs := regs, d := { ch.d with period := p, waveStep := w } } ∧
    (0 < ch.d.waveStep → 0 < w) := by
  induction k generalizing ch with
  | zero => exact ⟨_, _, _, rfl, id⟩
  | succ k ih =>
    rw [sweepClocks]
    split
    case isTrue => exact ⟨_, _, _, rfl, id⟩
    case isFalse =>
      obtain ⟨regs, p, w, h, hw⟩ := ih (setSweptPeriod args (BitVec.ofNat 11 (sweepTarget ch.d)) ch)
      exact ⟨regs, p, w, h, fun _ => hw (by simp [setSweptPeriod, squareWaveStep])⟩

/-! ## What the gate leaves (R310, R311) -/

theorem squareRecompute_d (args : ModelArgs) (ch : SquareChannel) :
    (squareRecompute args ch).d = squareDecode args ch.regs := by
  simp only [squareRecompute]
  split_ifs <;> rfl

theorem sawRecompute_d (args : ModelArgs) (ch : SawChannel) : (sawRecompute args ch).d = sawDecode args ch.regs := by
  simp only [sawRecompute]
  split_ifs <;> rfl

theorem squareGate_update (args : ModelArgs) (ch : SquareChannel) : (squareGate args ch).update = 0 := by
  by_cases hu : ch.update = 0
  · rw [squareGate_of_clean args hu, hu]
  · rw [squareGate_of_pending args hu]

theorem sawGate_update (args : ModelArgs) (ch : SawChannel) : (sawGate args ch).update = 0 := by
  by_cases hu : ch.update = 0
  · rw [sawGate_of_clean args hu, hu]
  · rw [sawGate_of_pending args hu]

/-- The gate leaves the record of the registers, whether it decodes them or finds nothing pending. -/
theorem squareGate_d {args : ModelArgs} {ch : SquareChannel} (hok : SquareOk args ch) :
    (squareGate args ch).d = squareDecode args ch.regs := by
  by_cases hu : ch.update = 0
  · rw [squareGate_of_clean args hu, hok hu]
  · rw [squareGate_of_pending args hu, squareRecompute_d]

theorem sawGate_d {args : ModelArgs} {ch : SawChannel} (hok : SawOk args ch) :
    (sawGate args ch).d = sawDecode args ch.regs := by
  by_cases hu : ch.update = 0
  · rw [sawGate_of_clean args hu, hok.1 hu]
  · rw [sawGate_of_pending args hu, sawRecompute_d]

/-- Every step of a decoded record is at least 1 (R311). -/
theorem squareDecode_steps_pos (args : ModelArgs) (regs : Vector Byte 4) :
    0 < (squareDecode args regs).envStep ∧ 0 < (squareDecode args regs).sweepStep ∧
      0 < (squareDecode args regs).waveStep :=
  ⟨Nat.lt_of_lt_of_le Nat.one_pos (le_max_left ..), Nat.lt_of_lt_of_le Nat.one_pos (le_max_left ..),
    by simp [squareDecode, squareWaveStep]⟩

theorem sawDecode_waveStep_pos (args : ModelArgs) (regs : Vector Byte 3) : 0 < (sawDecode args regs).waveStep := by
  simp [sawDecode]

/-! ## One sample of a square that is not silent (R321, R340, R342) -/

/-- What a sample that is not silent makes of the channel `g` that the gate leaves: everything but the wave. -/
structure SquareAdvanced (args : ModelArgs) (g c : SquareChannel) : Prop where
  update : c.update = g.update
  derived : c.d = { g.d with period := c.d.period, waveStep := c.d.waveStep }
  derived_of_no_sweep : ¬SweepRuns args g.d → c.d = g.d
  waveStep_pos : 0 < g.d.waveStep → 0 < c.d.waveStep
  envPhase : c.envPhase = (g.envPhase + args.cps) % g.d.envStep
  lenPhase : g.key = true → g.d.loop = false → c.lenPhase = (g.lenPhase + args.cps) % max 1 args.lenStep
  sweepPhase : SweepRuns args g.d → c.sweepPhase = (g.sweepPhase + args.cps) % g.d.sweepStep

theorem squareAdvanced_stages (args : ModelArgs) (g : SquareChannel) :
    SquareAdvanced args g (squareSweep args (squareLength args (squareEnvelope args g))) := by
  obtain ⟨p, n, k, r, hlength, hp⟩ := squareLength_frame args (squareEnvelope args g)
  generalize squareLength args (squareEnvelope args g) = l at hlength ⊢
  by_cases hs : SweepRuns args l.d
  · rw [squareSweep_of_runs hs]
    obtain ⟨regs, period, w, hsweep, hw⟩ := sweepClocks_frame args _ _
    rw [hsweep]
    subst hlength
    exact ⟨rfl, rfl, fun hn => absurd hs hn, hw, rfl, hp, fun _ => rfl⟩
  · rw [squareSweep_of_not_runs hs]
    subst hlength
    exact ⟨rfl, rfl, fun _ => rfl, id, rfl, hp, fun h => absurd h hs⟩

/-- The wave and the release step, after the stages that decide whether the channel is muted. -/
theorem squareStep_tail (args : ModelArgs) {ch c : SquareChannel}
    (h : (squareGate args ch).key = true ∨ (squareGate args ch).release ≠ 0)
    (hc : c = squareSweep args (squareLength args (squareEnvelope args (squareGate args ch)))) : ∃ w q r,
    (squareStep args ch).1 = { c with wavePhase := w, dutyPos := q, release := r } ∧
    (squareMuted args c.d = false → w = (c.wavePhase + args.cps) % c.d.waveStep) := by
  rw [squareStep_of_sounding args h, ← hc]
  dsimp only
  split
  case isTrue hm =>
    obtain ⟨r, hr⟩ := squareRelease_frame c
    exact ⟨_, _, r, hr, fun hm' => absurd (hm.symm.trans hm') (by decide)⟩
  case isFalse =>
    obtain ⟨r, hr⟩ := squareRelease_frame (squareWave args c)
    exact ⟨_, _, r, hr, fun _ => rfl⟩

theorem squareStep_advanced (args : ModelArgs) {ch : SquareChannel}
    (h : (squareGate args ch).key = true ∨ (squareGate args ch).release ≠ 0) :
    SquareAdvanced args (squareGate args ch) (squareStep args ch).1 := by
  obtain ⟨w, q, r, hstep, -⟩ := squareStep_tail args h rfl
  rw [hstep]
  exact { squareAdvanced_stages args (squareGate args ch) with }

theorem squareStep_wavePhase (args : ModelArgs) {ch : SquareChannel}
    (h : (squareGate args ch).key = true ∨ (squareGate args ch).release ≠ 0)
    (hm : squareMuted args (squareStep args ch).1.d = false) :
    ∃ n, (squareStep args ch).1.wavePhase = n % (squareStep args ch).1.d.waveStep := by
  obtain ⟨w, q, r, hstep, hw⟩ := squareStep_tail args h rfl
  rw [hstep] at hm ⊢
  exact ⟨_, hw hm⟩

/-! ## The phases after a sample (R342) -/

theorem squareStep_phases {args : ModelArgs} {ch c : SquareChannel} (hok : SquareOk args ch)
    (hc : c = (squareStep args ch).1) (h : (squareGate args ch).key = true ∨ (squareGate args ch).release ≠ 0) :
    c.envPhase < c.d.envStep ∧
    ((squareGate args ch).key = true → c.d.loop = false → c.lenPhase < max 1 args.lenStep) ∧
    (args.hasSweep = true → c.d.sweepEn = true → c.d.shift ≠ 0 → c.sweepPhase < c.d.sweepStep) ∧
    (squareMuted args c.d = false → c.wavePhase < c.d.waveStep) := by
  obtain ⟨henv, hsweep, hwave⟩ := squareDecode_steps_pos args ch.regs
  rw [← squareGate_d hok] at henv hsweep hwave
  have hadv := squareStep_advanced args h
  have hwavePhase := squareStep_wavePhase args h
  rw [← hc] at hadv hwavePhase
  rw [hadv.derived]
  dsimp only
  refine ⟨?env, fun hk hl => ?len, fun hp he hs => ?sweep, fun hm => ?wave⟩
  case env => exact hadv.envPhase ▸ Nat.mod_lt _ henv
  case len => exact hadv.lenPhase hk hl ▸ Nat.mod_lt _ (Nat.lt_of_lt_of_le Nat.one_pos (le_max_left ..))
  case sweep => exact hadv.sweepPhase ⟨hp, he, hs⟩ ▸ Nat.mod_lt _ hsweep
  case wave =>
    rw [← hadv.derived] at hm
    obtain ⟨n, hn⟩ := hwavePhase hm
    exact hn ▸ Nat.mod_lt _ (hadv.waveStep_pos hwave)

/-- A saw that is not silent moves its position, accumulator, phase and release only. -/
theorem sawStep_frame (args : ModelArgs) {ch : SawChannel}
    (h : (sawGate args ch).key = true ∨ (sawGate args ch).release ≠ 0) : ∃ p a r,
    (sawStep args ch).1 = { sawGate args ch with
      stepPos := p
      acc := a
      wavePhase := ((sawGate args ch).wavePhase + args.cps) % (sawGate args ch).d.waveStep
      release := r } := by
  rw [sawStep_of_sounding args h, sawWave]
  obtain ⟨p, a, hclocks⟩ := sawClocks_frame _ _
  rw [hclocks]
  obtain ⟨r, hr⟩ := sawRelease_frame _
  exact ⟨p, a, r, hr⟩

/-- Settles O35: a phase that moved is a remainder by its step, and no step is 0. -/
theorem phasesBoundedAfterSample : Obligations.PhasesBoundedAfterSample := by
  intro s hn ⟨h0, h1, hsaw⟩
  cases ho : s.cart.audioOption with
  | none => exact ⟨_, exec_sample_none hn ho, nofun, nofun⟩
  | square =>
    refine ⟨_, exec_sample_square hn ho, fun _ => ?_, nofun⟩
    simp only [List.forall_mem_cons]
    exact ⟨squareStep_phases h0 rfl, squareStep_phases h1 rfl, fun _ h => nomatch h⟩
  | saw =>
    refine ⟨_, exec_sample_saw hn ho, nofun, fun _ h => ?_⟩
    obtain ⟨p, a, r, hstep⟩ := sawStep_frame s.args h
    dsimp only
    rw [hstep, sawGate_d hsaw]
    exact Nat.mod_lt _ (sawDecode_waveStep_pos s.args s.saw.regs)

/-! ## The derived records after a second sample (R310, R340) -/

theorem squareStep_update (args : ModelArgs) (ch : SquareChannel) : (squareStep args ch).1.update = 0 := by
  obtain ⟨hk, hr⟩ | h := silent_or_sounding (squareGate args ch).key (squareGate args ch).release
  · rw [squareStep_of_silent args hk hr, squareGate_update]
  · rw [(squareStep_advanced args h).update, squareGate_update]

/-- With nothing pending only the sweep moves the record. -/
theorem squareStep_d {args : ModelArgs} {ch c : SquareChannel} (hu : ch.update = 0) (hc : c = (squareStep args ch).1) :
    c.d = { ch.d with period := c.d.period, waveStep := c.d.waveStep } ∧ (¬SweepRuns args ch.d → c.d = ch.d) := by
  have hgate := squareGate_of_clean args hu
  obtain ⟨hk, hr⟩ | h := silent_or_sounding (squareGate args ch).key (squareGate args ch).release
  · rw [hc, squareStep_of_silent args hk hr, hgate]
    exact ⟨rfl, fun _ => rfl⟩
  · have hadv := squareStep_advanced args h
    rw [hgate, ← hc] at hadv
    exact ⟨hadv.derived, hadv.derived_of_no_sweep⟩

theorem sawStep_gate (args : ModelArgs) (ch : SawChannel) :
    (sawStep args ch).1.update = 0 ∧ (sawStep args ch).1.d = (sawGate args ch).d := by
  obtain ⟨hk, hr⟩ | h := silent_or_sounding (sawGate args ch).key (sawGate args ch).release
  · rw [sawStep_of_silent args hk hr]
    exact ⟨sawGate_update args ch, rfl⟩
  · obtain ⟨p, a, r, hstep⟩ := sawStep_frame args h
    rw [hstep]
    exact ⟨sawGate_update args ch, rfl⟩

/-- One square channel over two samples. -/
theorem squareStep_twice {args : ModelArgs} (ch : SquareChannel) {c c' : SquareChannel}
    (hc : c = (squareStep args ch).1) (hc' : c' = (squareStep args c).1) :
    c.update = 0 ∧ c'.d = { c.d with period := c'.d.period, waveStep := c'.d.waveStep } ∧
    (args.hasSweep = false ∨ c.d.sweepEn = false ∨ c.d.shift = 0 → c'.d = c.d) := by
  have hu : c.update = 0 := hc ▸ squareStep_update args ch
  obtain ⟨hderived, hkept⟩ := squareStep_d hu hc'
  refine ⟨hu, hderived, fun h => hkept fun ⟨hp, he, hs⟩ => ?_⟩
  rcases h with h | h | h
  · cases hp.symm.trans h
  · cases he.symm.trans h
  · exact hs h

/-- Settles O36: the first sample leaves nothing pending, so the second one's gate is the identity. -/
theorem derivedConstantsKept : Obligations.DerivedConstantsKept := by
  intro s t h
  obtain ⟨hn, -⟩ := exec_sample_inv h
  cases ho : s.cart.audioOption with
  | none =>
    rw [exec_sample_none hn ho] at h
    cases h
    exact ⟨_, exec_sample_none hn ho, nofun, nofun⟩
  | square =>
    rw [exec_sample_square hn ho] at h
    cases h
    refine ⟨_, exec_sample_square hn ho, fun _ => ?_, nofun⟩
    simp only [List.forall_mem_cons]
    exact ⟨squareStep_twice s.sq0 rfl rfl, squareStep_twice s.sq1 rfl rfl, fun _ h => nomatch h⟩
  | saw =>
    rw [exec_sample_saw hn ho] at h
    cases h
    refine ⟨_, exec_sample_saw hn ho, nofun, fun _ => ?_⟩
    obtain ⟨hu, -⟩ := sawStep_gate s.args s.saw
    refine ⟨hu, (sawStep_gate s.args _).2.trans ?_⟩
    rw [sawGate_of_clean s.args hu]

end Sys2Proof.Machine
end

section

/-! PROOFS. The derived records of the audio channels: every transaction leaves a channel with nothing pending the record of
its registers (10_state.md R40, 45_audio.md R308 to R312, R324, R330 to R333, 46_lifecycle.md R370). -/

namespace Sys2Proof.Machine

/-! ## The register writes (R307, R308) -/

theorem markSquare_ne_zero (u : BitVec 4) (k : Fin 4) : markSquare u k ≠ 0 := by
  revert u k
  decide

theorem markSaw_ne_zero (u : BitVec 3) (k : Fin 3) : markSaw u k ≠ 0 := by
  revert u k
  decide

theorem squareOk_squareWrite (args : ModelArgs) (k : Fin 4) (v : Byte) (ch : SquareChannel) :
    SquareOk args (squareWrite k v ch) := fun hu => absurd hu (markSquare_ne_zero _ k)

theorem sawOk_sawWrite {args : ModelArgs} {ch : SawChannel} (hok : SawOk args ch) (k : Fin 3) (v : Byte) :
    SawOk args (sawWrite k v ch) := ⟨fun hu => absurd hu (markSaw_ne_zero _ k), hok.2⟩

/-- SQ.ENABLE moves neither the registers, the dirty mask nor the record. -/
theorem squareOk_squareEnable {args : ModelArgs} {ch : SquareChannel} (hok : SquareOk args ch) (on : Bool) :
    SquareOk args (squareEnable args on ch) := by
  rw [squareEnable_eq]
  split <;> exact hok

/-! ## The step of a square channel (R310, R312, R321, R324) -/

theorem squareGate_regs (args : ModelArgs) (ch : SquareChannel) : (squareGate args ch).regs = ch.regs := by
  unfold squareGate squareRecompute
  split
  · dsimp only
    split_ifs <;> rfl
  · rfl

/-- The registers that the sweep writes back decode to the record that it writes back (R324). -/
theorem setSweptPeriod_decoded {args : ModelArgs} {ch : SquareChannel} (h : ch.d = squareDecode args ch.regs)
    (p : BitVec 11) : (setSweptPeriod args p ch).d = squareDecode args (setSweptPeriod args p ch).regs := by
  have hperiod : squarePeriod (setSweptPeriod args p ch).regs = p := by
    apply BitVec.eq_of_toNat_eq
    rw [squarePeriod_toNat, setSweptPeriod_high, setSweptPeriod_low]
    omega
  have h0 : (setSweptPeriod args p ch).regs[0] = ch.regs[0] := by simp [setSweptPeriod]
  have h1 : (setSweptPeriod args p ch).regs[1] = ch.regs[1] := by simp [setSweptPeriod]
  simp only [squareDecode, hperiod, h0, h1]
  simp only [setSweptPeriod, h, squareDecode]

theorem sweepClocks_decoded {args : ModelArgs} {ch : SquareChannel} (h : ch.d = squareDecode args ch.regs) (k : Nat) :
    (sweepClocks args k ch).d = squareDecode args (sweepClocks args k ch).regs := by
  induction k generalizing ch with
  | zero => exact h
  | succ k ih =>
    rw [sweepClocks]
    split
    · exact h
    · exact ih (setSweptPeriod_decoded h _)

theorem squareSweep_decoded {args : ModelArgs} {ch : SquareChannel} (h : ch.d = squareDecode args ch.regs) :
    (squareSweep args ch).d = squareDecode args (squareSweep args ch).regs := by
  by_cases hs : SweepRuns args ch.d
  · rw [squareSweep_of_runs hs]
    refine sweepClocks_decoded ?_ _
    exact h
  · rwa [squareSweep_of_not_runs hs]

/-- After a sample nothing is pending, and the record is that of the registers. -/
theorem squareOk_squareStep {args : ModelArgs} {ch : SquareChannel} (hok : SquareOk args ch) :
    SquareOk args (squareStep args ch).1 := by
  have hgate : (squareGate args ch).d = squareDecode args (squareGate args ch).regs := by
    rw [squareGate_d hok, squareGate_regs]
  intro _
  obtain ⟨hk, hr⟩ | h := silent_or_sounding (squareGate args ch).key (squareGate args ch).release
  · rwa [squareStep_of_silent args hk hr]
  · obtain ⟨_, _, _, _, hlength, -⟩ := squareLength_frame args (squareEnvelope args (squareGate args ch))
    obtain ⟨_, _, _, hstep, -⟩ := squareStep_tail args h rfl
    rw [hstep]
    refine squareSweep_decoded ?_
    rw [hlength]
    exact hgate

/-! ## The step of a saw channel (R330, R332, R333) -/

theorem sawGate_regs (args : ModelArgs) (ch : SawChannel) : (sawGate args ch).regs = ch.regs := by
  unfold sawGate sawRecompute
  split
  · dsimp only
    split_ifs <;> rfl
  · rfl

/-- The gate restarts the position at key-on and moves it nowhere else. -/
theorem sawGate_stepPos (args : ModelArgs) (ch : SawChannel) :
    (sawGate args ch).stepPos = 0 ∨ (sawGate args ch).stepPos = ch.stepPos := by
  unfold sawGate sawRecompute
  split
  · dsimp only
    split_ifs
    · exact .inl rfl
    · exact .inr rfl
    · exact .inr rfl
  · exact .inr rfl

theorem sawOk_sawGate {args : ModelArgs} {ch : SawChannel} (hok : SawOk args ch) : SawOk args (sawGate args ch) := by
  refine ⟨fun _ => by rw [sawGate_d hok, sawGate_regs], ?_⟩
  obtain h | h := sawGate_stepPos args ch
  · simp [h]
  · exact h ▸ hok.2

/-- A tick keeps the position below 14 (R333). -/
theorem sawOk_sawClock {args : ModelArgs} {ch : SawChannel} (hok : SawOk args ch) : SawOk args (sawClock ch) := by
  obtain ⟨hd, hpos⟩ := hok
  obtain heq | hlt : ch.stepPos.toNat + 1 = 14 ∨ ch.stepPos.toNat + 1 < 14 := by omega
  · rw [sawClock_wraps heq]
    exact ⟨hd, Nat.zero_le _⟩
  · rw [sawClock_of_lt hlt]
    refine ⟨hd, ?_⟩
    rw [BitVec.toNat_ofNat]
    omega

theorem sawOk_sawClocks {args : ModelArgs} {ch : SawChannel} (hok : SawOk args ch) (n : Nat) :
    SawOk args (sawClocks n ch) := by
  induction n generalizing ch with
  | zero => exact hok
  | succ n ih => exact ih (sawOk_sawClock hok)

theorem sawOk_sawStep {args : ModelArgs} {ch : SawChannel} (hok : SawOk args ch) : SawOk args (sawStep args ch).1 := by
  have hgate := sawOk_sawGate hok
  obtain ⟨hk, hr⟩ | h := silent_or_sounding (sawGate args ch).key (sawGate args ch).release
  · rwa [sawStep_of_silent args hk hr]
  · have hwave : SawOk args (sawWave args (sawGate args ch)) := by
      refine sawOk_sawClocks ?_ _
      exact hgate
    obtain ⟨r, hr⟩ := sawRelease_frame (sawWave args (sawGate args ch))
    rw [sawStep_of_sounding args h, hr]
    exact hwave

/-! ## A pending write hides the record (R341, 46_lifecycle.md R370) -/

/-- The recompute decodes the record before anything reads it. -/
theorem squareGate_withD (args : ModelArgs) {ch : SquareChannel} (hu : ch.update ≠ 0) (d : SquareDerived) :
    squareGate args { ch with d := d } = squareGate args ch := by
  rw [squareGate_of_pending args hu]
  exact squareGate_of_pending args (ch := { ch with d := d }) hu

theorem sawGate_withD (args : ModelArgs) {ch : SawChannel} (hu : ch.update ≠ 0) (d : SawDerived) :
    sawGate args { ch with d := d } = sawGate args ch := by
  rw [sawGate_of_pending args hu]
  exact sawGate_of_pending args (ch := { ch with d := d }) hu

/-- Settles O44: a step reads its channel through the gate only. -/
theorem derivedUnreadWhilePending : Obligations.DerivedUnreadWhilePending := by
  refine ⟨fun args ch d hu => ?square, fun args ch d hu => ?saw⟩
  case square => simp only [squareStep, squareGate_withD args hu]
  case saw => simp only [sawStep, sawGate_withD args hu]

end Sys2Proof.Machine
end

section

/-! PROOFS. The pushed view and the latches: every write leaves the view of the registers, and each latch at $FD or $FE
(10_state.md R26, R30). -/

namespace Sys2Proof.Machine

/-! ## Effects behind the shells of the bus writes -/

/-- What a mapper's effect keeps, and a clear report too, the mapper's write keeps. -/
theorem onMapper_keeps {P : State → Prop} {ms : List Active} {s t : State} {f : State → State}
    (h : onMapper ms s f = .next t) (hclear : P s.clearReport) (hf : s.active ∈ ms → P (f s.clearReport)) : P t := by
  obtain ⟨-, rfl | ⟨ha, rfl⟩⟩ := onMapper_inv h
  · exact hclear
  · exact hf ha

theorem onAudio_keeps {P : State → Prop} {o : AudioOption} {s t : State} {f : State → State}
    (h : onAudio o s f = .next t) (hclear : P s.clearReport) (hf : P (f s.clearReport)) : P t := by
  obtain ⟨-, rfl | ⟨-, rfl⟩⟩ := onAudio_inv h
  · exact hclear
  · exact hf

/-! ## The view of each variant -/

/-- With a cartridge claimed the view of the registers does not depend on what is pushed. -/
theorem viewOf_withView {s : State} (hn : s.active ≠ .none) (b : BusView) : viewOf { s with view := b } = viewOf s := by
  cases ha : s.active <;> simp only [viewOf, ha]
  case none => exact absurd ha hn

section
variable {s : State}

theorem viewOk_bandai (ha : s.active = .bandai) : ViewOk s ↔ s.view = bandaiView s.cart s.bandai := by
  simp [ViewOk, viewOf, ha]

theorem viewOk_mmc2 (ha : s.active = .mmc2) : ViewOk s ↔ s.view = mmc2View s.cart s.mmc := by
  simp [ViewOk, viewOf, ha]

theorem viewOk_mmc4 (ha : s.active = .mmc4) : ViewOk s ↔ s.view = mmc4View s.cart s.mmc := by
  simp [ViewOk, viewOf, ha]

theorem viewOk_sunsoft (ha : s.active = .sunsoft) : ViewOk s ↔ s.view = sunsoftView s.cart s.sunsoft := by
  simp [ViewOk, viewOf, ha]

/-! ## The effects of BANDAI's and SUNSOFT's ports (40_bandai.md R140, 42_sunsoft.md R220) -/

/-- The low window of a view whose high one is fixed. -/
theorem withLow16_prgLow16 (c : Cartridge) (v v' : Byte) :
    withLow16 (maskPage c.prg16 v) (prgLow16 c v') = prgLow16 c v := by
  refine vector_ext_fin fun i => ?_
  fin_cases i <;> simp [withLow16, prgLow16]

theorem viewOk_bandaiChr (ha : s.active = .bandai) (hv : ViewOk s) (n : Fin 8) (v : Byte) :
    ViewOk (bandaiChr n v s) := by
  rw [viewOk_bandai ha] at hv
  refine (viewOk_bandai (s := bandaiChr n v s) ha).mpr ?_
  simp [bandaiChr, hv, bandaiView, selectChr1, Vector.map_set]

theorem viewOk_bandaiPrg (ha : s.active = .bandai) (hv : ViewOk s) (v : Byte) : ViewOk (bandaiPrg v s) := by
  rw [viewOk_bandai ha] at hv
  refine (viewOk_bandai (s := bandaiPrg v s) ha).mpr ?_
  simp [bandaiPrg, hv, bandaiView, selectPrg16_low_eq, withLow16_prgLow16]

theorem viewOk_bandaiMirror (ha : s.active = .bandai) (hv : ViewOk s) (v : Byte) : ViewOk (bandaiMirror v s) := by
  rw [viewOk_bandai ha] at hv
  refine (viewOk_bandai (s := bandaiMirror v s) ha).mpr ?_
  simp [bandaiMirror, hv, bandaiView, setMirroring]

theorem viewOk_sunsoftChr (ha : s.active = .sunsoft) (hv : ViewOk s) (w : Fin 4) (v : Byte) :
    ViewOk (sunsoftChr w v s) := by
  rw [viewOk_sunsoft ha] at hv
  refine (viewOk_sunsoft (s := sunsoftChr w v s) ha).mpr ?_
  simp only [sunsoftChr, hv, sunsoftView, selectChr2_eq, BusView.mk.injEq, true_and]
  refine ⟨vector_ext_fin fun i => ?_, rfl⟩
  fin_cases w <;> fin_cases i <;> simp [withChrPair, chrPair]

/-- PushNt pushes the tables of the registers that it reads, and the rest of the view does not depend on these. -/
theorem viewOk_pushNts {r : SunsoftRegs} (ha : s.active = .sunsoft) (hv : ViewOk s) (hchr : r.chr = s.sunsoft.chr)
    (hprg : r.prg = s.sunsoft.prg) : ViewOk (pushNts { s with sunsoft := r }) := by
  rw [viewOk_sunsoft ha] at hv
  refine (viewOk_sunsoft (s := pushNts { s with sunsoft := r }) ha).mpr ?_
  simp [pushNts, pushNt, hv, sunsoftView, hchr, hprg]

theorem viewOk_sunsoftPrg (ha : s.active = .sunsoft) (hv : ViewOk s) (v : Byte) : ViewOk (sunsoftPrg v s) := by
  rw [viewOk_sunsoft ha] at hv
  refine (viewOk_sunsoft (s := sunsoftPrg v s) ha).mpr ?_
  simp only [sunsoftPrg, hv, sunsoftView, selectPrg16_low_eq, withLow16_prgLow16]
  rfl

/-! ## The effects of the MMC windows (41_mmc2_mmc4.md R184, R185) -/

theorem viewOk_mmc2Prg8 (ha : s.active = .mmc2) (hv : ViewOk s) (v : Byte) : ViewOk (mmc2Prg8 v s) := by
  rw [viewOk_mmc2 ha] at hv
  refine (viewOk_mmc2 (s := mmc2Prg8 v s) ha).mpr ?_
  simp only [mmc2Prg8, hv, mmc2View, selectPrg8]
  rfl

theorem viewOk_mmc4Prg16 (ha : s.active = .mmc4) (hv : ViewOk s) (v : Byte) : ViewOk (mmc4Prg16 v s) := by
  rw [viewOk_mmc4 ha] at hv
  refine (viewOk_mmc4 (s := mmc4Prg16 v s) ha).mpr ?_
  simp only [mmc4Prg16, hv, mmc4View, selectPrg16_low_eq, withLow16_prgLow16]
  rfl

theorem viewOk_mmcMirror (ha : s.active = .mmc2 ∨ s.active = .mmc4) (hv : ViewOk s) (v : Byte) :
    ViewOk (mmcMirror v s) := by
  rcases ha with ha | ha
  · rw [viewOk_mmc2 ha] at hv
    refine (viewOk_mmc2 (s := mmcMirror v s) ha).mpr ?_
    simp only [mmcMirror, hv, mmc2View, setMirroring, selectNts_eq]
    rfl
  · rw [viewOk_mmc4 ha] at hv
    refine (viewOk_mmc4 (s := mmcMirror v s) ha).mpr ?_
    simp only [mmcMirror, hv, mmc4View, setMirroring, selectNts_eq]
    rfl

/-- The CHR registers and the latches show in chr_slot only. -/
theorem viewOf_withMmc {r : MmcRegs} (ha : s.active = .mmc2 ∨ s.active = .mmc4) (hprg : r.prg = s.mmc.prg)
    (hmirror : r.mirror = s.mmc.mirror) :
    viewOf { s with mmc := r } = { viewOf s with chrSlot := mmcChrSlots s.cart r } := by
  rcases ha with ha | ha <;> simp [viewOf, ha, mmc2View, mmc4View, hprg, hmirror]

/-- A register that no latch selects does not show. -/
theorem viewOk_withMmc {r : MmcRegs} (ha : s.active = .mmc2 ∨ s.active = .mmc4) (hv : ViewOk s)
    (hprg : r.prg = s.mmc.prg) (hmirror : r.mirror = s.mmc.mirror)
    (hsel : ∀ h, latchedChr h r = latchedChr h s.mmc) : ViewOk { s with mmc := r } := by
  intro _
  have hslots : mmcChrSlots s.cart r = mmcChrSlots s.cart s.mmc := by simp only [mmcChrSlots, hsel]
  rw [viewOf_withMmc ha hprg hmirror, hslots, ← viewOf_withMmc ha rfl rfl]
  exact hv (ne_none_of_mmc ha)

/-- Pushing half `h` shows new registers, if the other half's latch selects the value that it selected before. -/
theorem viewOk_pushHalf {r : MmcRegs} (ha : s.active = .mmc2 ∨ s.active = .mmc4) (hv : ViewOk s) (h : Bool)
    (hprg : r.prg = s.mmc.prg) (hmirror : r.mirror = s.mmc.mirror)
    (hother : latchedChr (!h) r = latchedChr (!h) s.mmc) : ViewOk (pushHalf h { s with mmc := r }) := by
  have hview : s.view = { viewOf s with chrSlot := mmcChrSlots s.cart s.mmc } := by
    rw [← viewOf_withMmc ha rfl rfl]
    exact hv (ne_none_of_mmc ha)
  have hslots : withChrHalf h.toNat (maskPage s.cart.chr4 (latchedChr h r)) (mmcChrSlots s.cart s.mmc) =
      mmcChrSlots s.cart r := by
    rw [mmcChrSlots, withChrHalf_chrHalves]
    cases h
    · exact congrArg (fun v => chrHalves _ (maskPage s.cart.chr4 v)) hother.symm
    · exact congrArg (fun v => chrHalves (maskPage s.cart.chr4 v) _) hother.symm
  intro _
  calc (pushHalf h { s with mmc := r }).view
      = { s.view with
          chrSlot := withChrHalf h.toNat (maskPage s.cart.chr4 (latchedChr h r)) s.view.chrSlot } :=
        pushChrHalf_eq h s.cart r s.view
    _ = { viewOf s with chrSlot := mmcChrSlots s.cart r } := by rw [hview, ← hslots]
    _ = viewOf { s with mmc := r } := (viewOf_withMmc ha hprg hmirror).symm
    _ = viewOf (pushHalf h { s with mmc := r }) :=
        (viewOf_withView (s := { s with mmc := r }) (ne_none_of_mmc ha) _).symm

/-- A CHR window keeps the view: it pushes its half, or its register is the one that the latch does not select. -/
theorem viewOk_storeThenPush {h : Bool} {l : MmcRegs → Byte} {tile : Byte} {store : MmcRegs → MmcRegs}
    (ha : s.active = .mmc2 ∨ s.active = .mmc4) (hv : ViewOk s)
    (hprg : (store s.mmc).prg = s.mmc.prg) (hmirror : (store s.mmc).mirror = s.mmc.mirror)
    (hother : latchedChr (!h) (store s.mmc) = latchedChr (!h) s.mmc)
    (hskip : l (store s.mmc) ≠ tile → latchedChr h (store s.mmc) = latchedChr h s.mmc) :
    ViewOk (storeThenPush h l tile store s) := by
  by_cases hl : l (store s.mmc) = tile
  · rw [storeThenPush, if_pos hl]
    exact viewOk_pushHalf ha hv h hprg hmirror hother
  · rw [storeThenPush, if_neg hl]
    refine viewOk_withMmc ha hv hprg hmirror fun k => ?_
    obtain rfl | rfl : k = h ∨ k = !h := by cases k <;> cases h <;> simp
    · exact hskip hl
    · exact hother

theorem viewOk_mmcChrfd0 (ha : s.active = .mmc2 ∨ s.active = .mmc4) (hv : ViewOk s) (v : Byte) :
    ViewOk (mmcChrfd0 v s) :=
  viewOk_storeThenPush (h := false) (l := (·.latch0)) (store := fun r => { r with chrFd0 := v }) ha hv rfl rfl rfl
    fun hl => (if_neg hl).trans (if_neg hl).symm

theorem viewOk_mmcChrfd1 (ha : s.active = .mmc2 ∨ s.active = .mmc4) (hv : ViewOk s) (v : Byte) :
    ViewOk (mmcChrfd1 v s) :=
  viewOk_storeThenPush (h := true) (l := (·.latch1)) (store := fun r => { r with chrFd1 := v }) ha hv rfl rfl rfl
    fun hl => (if_neg hl).trans (if_neg hl).symm

theorem viewOk_mmcChrfe0 (ha : s.active = .mmc2 ∨ s.active = .mmc4) (hv : ViewOk s) (hlatch : LatchOk s) (v : Byte) :
    ViewOk (mmcChrfe0 v s) :=
  viewOk_storeThenPush (h := false) (l := (·.latch0)) (store := fun r => { r with chrFe0 := v }) ha hv rfl rfl rfl
    fun hl => by simp [latchedChr, hlatch.1.resolve_right hl]

theorem viewOk_mmcChrfe1 (ha : s.active = .mmc2 ∨ s.active = .mmc4) (hv : ViewOk s) (hlatch : LatchOk s) (v : Byte) :
    ViewOk (mmcChrfe1 v s) :=
  viewOk_storeThenPush (h := true) (l := (·.latch1)) (store := fun r => { r with chrFe1 := v }) ha hv rfl rfl rfl
    fun hl => by simp [latchedChr, hlatch.2.resolve_right hl]

/-! ## The latch machine and RENDER_LINE (41_mmc2_mmc4.md R180, 44_bg_renderer.md R269) -/

/-- PPU_LATCH does nothing, or stores a trigger tile in its half's latch and pushes that half. -/
theorem latchCheck_cases (p : PpuAddr) (s : State) : latchCheck p s = s ∨
    ∃ h t, (s.active = .mmc2 ∨ s.active = .mmc4) ∧ (t = 0xFD ∨ t = 0xFE) ∧
      latchCheck p s = pushHalf h { s with mmc := setLatch h t s.mmc } := by
  unfold latchCheck
  split
  case isTrue hc =>
    obtain ⟨⟨hsens, -⟩, htile⟩ : (latchSensitive s.active = true ∧ _) ∧ isTrigger (ppuTile p) = true := by
      simpa using hc
    exact .inr ⟨ppuHalf p, ppuTile p, by simpa [latchSensitive] using hsens, by simpa [isTrigger] using htile, rfl⟩
  case isFalse => exact .inl rfl

theorem viewOk_latchCheck (hv : ViewOk s) (p : PpuAddr) : ViewOk (latchCheck p s) := by
  obtain h | ⟨half, t, ha, -, h⟩ := latchCheck_cases p s <;> rw [h]
  · exact hv
  · exact viewOk_pushHalf ha hv half (by cases half <;> rfl) (by cases half <;> rfl) (by cases half <;> rfl)

theorem latchOk_latchCheck (hl : LatchOk s) (p : PpuAddr) : LatchOk (latchCheck p s) := by
  obtain h | ⟨half, t, -, ht, h⟩ := latchCheck_cases p s <;> rw [h]
  · exact hl
  · cases half
    · exact ⟨ht, hl.2⟩
    · exact ⟨hl.1, ht⟩

/-- What PPU_LATCH keeps, and any LINE, RENDER_LINE keeps. -/
theorem exec_renderLine_keeps {P : State → Prop} {t : State} (v : BitVec 15) (fineX : BitVec 3)
    (bgSel leftClip bgEnabled widthOk : Bool)
    (h : exec (.renderLine v fineX bgSel leftClip bgEnabled widthOk) s = .next t) (hs : P s.clearReport)
    (hlatch : ∀ u p, P u → P (latchCheck p u))
    (hline : ∀ (u : State) pixels n, P u → P { u with line := pixels, freeCount := n }) : P t := by
  obtain ⟨hn, -⟩ := exec_renderLine_inv v fineX bgSel leftClip bgEnabled widthOk h
  cases widthOk with
  | false =>
    cases (exec_renderLine_unsized hn v fineX bgSel leftClip bgEnabled).symm.trans h
    exact hline _ _ _ hs
  | true =>
    cases bgEnabled with
    | false =>
      cases (exec_renderLine_off hn v fineX bgSel leftClip).symm.trans h
      exact hline _ _ _ hs
    | true =>
      cases (exec_renderLine_on hn v fineX bgSel leftClip).symm.trans h
      exact hline _ _ _ (List.foldlRecOn _ _ hs fun u hu _ _ => hlatch u _ hu)

end

end Sys2Proof.Machine
end

section

/-! PROOFS. The invariant: every step keeps it, and it holds before the first INIT (10_state.md R26, R30, R40,
46_lifecycle.md R362, R364, R370). -/

namespace Sys2Proof.Machine

/-! ## What INIT, RESET and LOAD leave (46_lifecycle.md R360, R366, R369) -/

theorem viewOk_pushView (s : State) : ViewOk (pushView s) := fun hn => (viewOf_withView (s := s) hn (viewOf s)).symm

theorem viewOk_claim (c : Cartridge) (m : Active) (s : State) : ViewOk (claim c m s) := viewOk_pushView _

/-- INIT's page checks in arithmetic: each check that fails contradicts one of the three conditions (R360). -/
theorem pageCheck_eq_ok_iff (m : Active) (prg chr : Byte) : pageCheck m prg chr = .ok ↔
    minPrg m ≤ prg.toNat ∧ PowerOfTwo prg.toNat ∧ PowerOfTwo chr.toNat := by
  rw [← isPow2_iff, ← isPow2_iff]
  have hpos : isPow2 chr = true → 1 ≤ chr.toNat := fun h => ((isPow2_iff chr).mp h).pos
  unfold pageCheck
  split_ifs with h1 h2 h3 h4 <;> simp_all

theorem cartOk_claim {id prg chr : Byte} {m : Active} {mode : MirrorMode} {o : AudioOption} (hm : variantOf id = some m)
    (hp : pageCheck m prg chr = .ok) (s : State) : CartOk (claim ⟨id, prg, chr, mode, o⟩ m s) := by
  obtain ⟨hmin, hprg, hchr⟩ := (pageCheck_eq_ok_iff m prg chr).mp hp
  refine fun _ => ⟨hprg, hchr, fun h2 => ?_, hm⟩
  obtain rfl : m = .mmc2 := h2
  exact hmin

theorem latchOk_of_mmc_eq {s t : State} (h : t.mmc = s.mmc) (hs : LatchOk s) : LatchOk t := by
  unfold LatchOk
  rwa [h]

theorem latchOk_mmcReset {s : State} {m : MirrorMode} (h : s.mmc = mmcReset m) : LatchOk s := by
  rw [LatchOk, h]
  exact ⟨.inr rfl, .inr rfl⟩

theorem squareOk_squareReset (args : ModelArgs) : SquareOk args (squareReset args) := fun _ => rfl

theorem sawOk_sawReset (args : ModelArgs) : SawOk args (sawReset args) := ⟨fun _ => rfl, Nat.zero_le _⟩

theorem audioOk_resetAll (s : State) : AudioOk (resetAll s) :=
  ⟨squareOk_squareReset _, squareOk_squareReset _, sawOk_sawReset _⟩

theorem latchOk_resetMapper {s : State} (hl : LatchOk s) : LatchOk (resetMapper s) := by
  cases ha : s.active <;> simp only [resetMapper, ha]
  case mmc2 | mmc4 => exact latchOk_mmcReset rfl
  all_goals exact hl

theorem audioOk_resetAudio {s : State} (hs : AudioOk s) : AudioOk (resetAudio s) := by
  cases ho : s.cart.audioOption <;> simp only [resetAudio, ho]
  case none => exact hs
  case square => exact ⟨squareOk_squareReset _, squareOk_squareReset _, hs.2.2⟩
  case saw => exact ⟨hs.1, hs.2.1, sawOk_sawReset _⟩

/-- LOAD decodes the registers again. -/
theorem squareOfBytes_decoded {args : ModelArgs} {l : List Byte} {ch : SquareChannel}
    (h : squareOfBytes args l = some ch) : ch.d = squareDecode args ch.regs := by
  simp only [squareOfBytes, Option.ite_none_right_eq_some, Option.some.injEq] at h
  obtain ⟨-, rfl⟩ := h
  rfl

theorem sawOfBytes_decoded {args : ModelArgs} {l : List Byte} {ch : SawChannel}
    (h : sawOfBytes args l = some ch) : ch.d = sawDecode args ch.regs := by
  simp only [sawOfBytes, Option.ite_none_right_eq_some, Option.some.injEq] at h
  obtain ⟨-, rfl⟩ := h
  rfl

theorem sawOfBytes_stepPos {args : ModelArgs} {l : List Byte} {ch : SawChannel}
    (h : sawOfBytes args l = some ch) : ch.stepPos.toNat ≤ 13 := by
  simp only [sawOfBytes, Option.ite_none_right_eq_some, Option.some.injEq] at h
  obtain ⟨⟨-, -, hpos⟩, rfl⟩ := h
  simp only [extractLsb'_toNat_eq]
  omega

/-- LOAD accepts no other latch values (R371). -/
theorem mmcOfBytes_latches {l : List Byte} {r : MmcRegs} (h : mmcOfBytes l = some r) :
    (r.latch0 = 0xFD ∨ r.latch0 = 0xFE) ∧ (r.latch1 = 0xFD ∨ r.latch1 = 0xFE) := by
  simp only [mmcOfBytes, Option.ite_none_right_eq_some, Option.some.injEq, Bool.and_eq_true] at h
  obtain ⟨⟨⟨h0, h1⟩, -⟩, rfl⟩ := h
  exact ⟨by simpa [isTrigger] using h0, by simpa [isTrigger] using h1⟩

theorem latchOk_loadMapper {l : List Byte} {s t : State} (hl : LatchOk s) (h : loadMapper l s = some t) : LatchOk t := by
  cases ha : s.active <;> simp only [loadMapper, ha, Option.some.injEq, Option.map_eq_some_iff] at h
  case mmc2 | mmc4 =>
    obtain ⟨r, hr, rfl⟩ := h
    exact mmcOfBytes_latches hr
  case none | sunsoft => exact h ▸ hl
  case bandai =>
    obtain ⟨r, -, rfl⟩ := h
    exact hl

theorem loadAudio_square {l : List Byte} {s t : State} (ho : s.cart.audioOption = .square)
    (h : loadAudio l s = some t) : ∃ c0 c1, squareOfBytes s.args l = some c0 ∧
      squareOfBytes s.args (l.drop 44) = some c1 ∧ t = { s with sq0 := c0, sq1 := c1, da := byteAt l 88 } := by
  simp only [loadAudio, ho] at h
  split at h
  case h_1 c0 c1 h0 h1 => exact ⟨c0, c1, h0, h1, (Option.some.inj h).symm⟩
  case h_2 => cases h

theorem loadAudio_saw {l : List Byte} {s t : State} (ho : s.cart.audioOption = .saw) (h : loadAudio l s = some t) :
    ∃ c, sawOfBytes s.args l = some c ∧ t = { s with saw := c } := by
  simp only [loadAudio, ho] at h
  obtain ⟨c, hc, rfl⟩ := Option.map_eq_some_iff.mp h
  exact ⟨c, hc, rfl⟩

theorem audioOk_loadAudio {l : List Byte} {s t : State} (hs : AudioOk s) (h : loadAudio l s = some t) : AudioOk t := by
  have ⟨h0, h1, hsaw⟩ := hs
  cases ho : s.cart.audioOption with
  | none =>
    simp only [loadAudio, ho] at h
    exact Option.some.inj h ▸ hs
  | square =>
    obtain ⟨c0, c1, hc0, hc1, rfl⟩ := loadAudio_square ho h
    exact ⟨fun _ => squareOfBytes_decoded hc0, fun _ => squareOfBytes_decoded hc1, hsaw⟩
  | saw =>
    obtain ⟨c, hc, rfl⟩ := loadAudio_saw ho h
    exact ⟨h0, h1, fun _ => sawOfBytes_decoded hc, sawOfBytes_stepPos hc⟩

theorem audioOk_resetMapper {s : State} (hs : AudioOk s) : AudioOk (resetMapper s) := by
  unfold resetMapper
  split <;> exact hs

/-! ## What the other effects leave -/

/-- An MMC CHR window stores its register and pushes its half or not (41_mmc2_mmc4.md R172 to R175). -/
theorem audioOk_pushHalf_ite {c : Prop} [Decidable c] {half : Bool} {s : State} (hs : AudioOk s) :
    AudioOk (if c then pushHalf half s else s) := by
  split <;> exact hs

theorem audioOk_sampleChip {s : State} (hs : AudioOk s) : AudioOk (sampleChip s) := by
  obtain ⟨h0, h1, hsaw⟩ := hs
  cases ho : s.cart.audioOption <;> simp only [sampleChip, ho]
  case none => exact ⟨h0, h1, hsaw⟩
  case square => exact ⟨squareOk_squareStep h0, squareOk_squareStep h1, hsaw⟩
  case saw => exact ⟨h0, h1, sawOk_sawStep hsaw⟩

/-- The interrupt counter is no part of the view (40_bandai.md R140). -/
theorem viewOk_withBandai {s : State} {r : BandaiRegs} (ha : s.active = .bandai) (hv : ViewOk s)
    (hr : bandaiView s.cart r = bandaiView s.cart s.bandai) : ViewOk { s with bandai := r } :=
  (viewOk_bandai (s := { s with bandai := r }) ha).mpr (((viewOk_bandai ha).mp hv).trans hr.symm)

theorem bandaiView_commitRegs (c : Cartridge) (d : Nat) (r : BandaiRegs) :
    bandaiView c (commitRegs d r) = bandaiView c r := by
  unfold commitRegs
  split_ifs <;> rfl

theorem viewOk_commit {s : State} (ha : s.active = .bandai) (hv : ViewOk s) : ViewOk (commit s) := by
  have hregs := viewOk_withBandai ha hv (bandaiView_commitRegs s.cart s.args.pseudoClocks s.bandai)
  unfold commit
  dsimp only
  split <;> exact hregs

/-! ## Each part of the invariant through one instruction -/

section
variable {i : Instr} {s t : State}

/-- Only INIT claims a cartridge, and it checks the page counts (R360, R362). -/
theorem exec_keeps_cartOk (hs : CartOk s) (h : exec i s = .next t) : CartOk t := by
  cases i
  case init id prg chr mirror audio =>
    obtain ⟨o, m, -, hm, ⟨hp, rfl⟩ | ⟨r, -, -, rfl⟩⟩ := exec_init_inv id prg chr mirror audio h
    · exact cartOk_claim hm hp s.clearReport
    · exact fun hn => absurd rfl hn
  all_goals
    obtain ⟨hcart, hactive⟩ := (exec_writesOnlyItsOwn h).config (by simp [Instr.isInit])
    unfold CartOk
    rwa [hcart, hactive]

/-- No instruction writes the memories. -/
theorem exec_keeps_memoryOk (hs : MemoryOk s) (h : exec i s = .next t) : MemoryOk t := by
  have w := exec_writesOnlyItsOwn h
  unfold MemoryOk
  rwa [w.prgRom, w.chrRom, w.ciram]

theorem exec_keeps_latchOk (hs : LatchOk s) (h : exec i s = .next t) : LatchOk t := by
  cases i
  case ppuLatch p =>
    obtain ⟨-, rfl⟩ := exec_ppuLatch_inv p h
    exact latchOk_latchCheck (s := s.clearReport) hs p
  case renderLine v fineX bgSel leftClip bgEnabled widthOk =>
    exact exec_renderLine_keeps v fineX bgSel leftClip bgEnabled widthOk h hs (fun _ p hu => latchOk_latchCheck hu p)
      fun _ _ _ hu => hu
  case reset =>
    obtain ⟨-, rfl⟩ := exec_reset_inv h
    have hr := latchOk_resetMapper (s := s.clearReport) hs
    unfold resetBlock resetAudio
    split <;> exact hr
  case load =>
    obtain ⟨-, hb⟩ := exec_load_inv h
    obtain ⟨-, u, w, hu, hw, rfl⟩ := loadBlock_some _ _ hb
    have hmmc : w.mmc = u.mmc := by rw [loadAudio_frame _ _ _ hw]
    exact latchOk_of_mmc_eq hmmc (latchOk_loadMapper (s := s.clearReport) hs hu)
  case init id prg chr mirror audio =>
    obtain ⟨o, m, -, -, ⟨-, rfl⟩ | ⟨r, -, -, rfl⟩⟩ := exec_init_inv id prg chr mirror audio h
    · exact latchOk_mmcReset rfl
    · exact hs
  all_goals
    obtain ⟨h0, h1⟩ := (exec_writesOnlyItsOwn h).latches (by simp [Instr.mayMoveLatch])
    unfold LatchOk
    rwa [h0, h1]

/-- Each mapper write pushes what it stores; RESET, LOAD and INIT push the whole view; no other instruction moves what
the view is made of. -/
theorem exec_keeps_viewOk (hv : ViewOk s) (hl : LatchOk s) (h : exec i s = .next t) : ViewOk t := by
  have hone {m : Active} (ha : s.active ∈ [m]) : s.active = m := List.mem_singleton.mp ha
  have htwo (ha : s.active ∈ [Active.mmc2, Active.mmc4]) : s.active = .mmc2 ∨ s.active = .mmc4 := by simpa using ha
  cases i
  case bandaiChr0 | bandaiChr1 | bandaiChr2 | bandaiChr3 | bandaiChr4 | bandaiChr5 | bandaiChr6 | bandaiChr7 =>
    exact onMapper_keeps h hv fun ha => viewOk_bandaiChr (s := s.clearReport) (hone ha) hv _ _
  case bandaiPrg => exact onMapper_keeps h hv fun ha => viewOk_bandaiPrg (s := s.clearReport) (hone ha) hv _
  case bandaiMirror => exact onMapper_keeps h hv fun ha => viewOk_bandaiMirror (s := s.clearReport) (hone ha) hv _
  case bandaiIrqctl | bandaiLatchlo | bandaiLatchhi =>
    exact onMapper_keeps h hv fun ha => viewOk_withBandai (s := s.clearReport) (hone ha) hv rfl
  case bandaiPort13 | bandaiPort14 | bandaiPort15 | mmcUnclaimed => exact onMapper_keeps h hv fun _ => hv
  case mmc2Prg8 => exact onMapper_keeps h hv fun ha => viewOk_mmc2Prg8 (s := s.clearReport) (hone ha) hv _
  case mmc4Prg16 => exact onMapper_keeps h hv fun ha => viewOk_mmc4Prg16 (s := s.clearReport) (hone ha) hv _
  case mmcChrfd0 => exact onMapper_keeps h hv fun ha => viewOk_mmcChrfd0 (s := s.clearReport) (htwo ha) hv _
  case mmcChrfe0 => exact onMapper_keeps h hv fun ha => viewOk_mmcChrfe0 (s := s.clearReport) (htwo ha) hv hl _
  case mmcChrfd1 => exact onMapper_keeps h hv fun ha => viewOk_mmcChrfd1 (s := s.clearReport) (htwo ha) hv _
  case mmcChrfe1 => exact onMapper_keeps h hv fun ha => viewOk_mmcChrfe1 (s := s.clearReport) (htwo ha) hv hl _
  case mmcMirror => exact onMapper_keeps h hv fun ha => viewOk_mmcMirror (s := s.clearReport) (htwo ha) hv _
  case sunsoftChr0 | sunsoftChr1 | sunsoftChr2 | sunsoftChr3 =>
    exact onMapper_keeps h hv fun ha => viewOk_sunsoftChr (s := s.clearReport) (hone ha) hv _ _
  case sunsoftNt0 | sunsoftNt1 | sunsoftNtctl =>
    exact onMapper_keeps h hv fun ha => viewOk_pushNts (s := s.clearReport) (hone ha) hv rfl rfl
  case sunsoftPrg => exact onMapper_keeps h hv fun ha => viewOk_sunsoftPrg (s := s.clearReport) (hone ha) hv _
  case sq0R0 | sq0R1 | sq0R2 | sq0R3 | sq1R0 | sq1R1 | sq1R2 | sq1R3 | sqDa | sqEnable | sawR0 | sawR1 | sawR2
      | sawR3 =>
    simp only [exec] at h
    exact onAudio_keeps h hv hv
  case ppuLatch p =>
    obtain ⟨-, rfl⟩ := exec_ppuLatch_inv p h
    exact viewOk_latchCheck (s := s.clearReport) hv p
  case scanlineStart line =>
    obtain ⟨-, ⟨-, rfl⟩ | ⟨ha, rfl⟩⟩ := exec_scanlineStart_inv line h
    · exact hv
    · exact viewOk_commit (s := s.clearReport) ha hv
  case predict line =>
    obtain ⟨-, rfl⟩ := exec_predict_inv line h
    exact hv
  case reset =>
    obtain ⟨-, rfl⟩ := exec_reset_inv h
    have hr := viewOk_pushView (resetMapper s.clearReport)
    unfold resetBlock resetAudio
    split <;> exact hr
  case renderLine v fineX bgSel leftClip bgEnabled widthOk =>
    exact exec_renderLine_keeps v fineX bgSel leftClip bgEnabled widthOk h hv (fun _ p hu => viewOk_latchCheck hu p)
      fun _ _ _ hu => hu
  case sample =>
    obtain ⟨-, rfl⟩ := exec_sample_inv h
    rw [sampleChip_frame]
    exact hv
  case save =>
    obtain ⟨-, rfl⟩ := exec_save_inv h
    exact hv
  case load =>
    obtain ⟨-, hb⟩ := exec_load_inv h
    obtain ⟨-, u, w, -, -, rfl⟩ := loadBlock_some _ _ hb
    exact viewOk_pushView w
  case init id prg chr mirror audio =>
    obtain ⟨o, m, -, -, ⟨-, rfl⟩ | ⟨r, -, -, rfl⟩⟩ := exec_init_inv id prg chr mirror audio h
    · exact viewOk_claim _ m s.clearReport
    · exact fun hn => absurd rfl hn
  case reservedA | reservedB | reservedC | reservedD | reservedE | reservedF =>
    exact absurd h (exec_reserved_not_next _ (by simp [Instr.isReserved]))

/-- The audio registers' writes set a dirty bit; SAMPLE, RESET, LOAD and INIT leave decoded records; no other instruction
moves a channel. -/
theorem exec_keeps_audioOk (hs : AudioOk s) (h : exec i s = .next t) : AudioOk t := by
  have ⟨h0, h1, hsaw⟩ := hs
  cases i
  case sq0R0 | sq0R1 | sq0R2 | sq0R3 =>
    simp only [exec] at h
    exact onAudio_keeps h hs ⟨squareOk_squareWrite _ _ _ _, h1, hsaw⟩
  case sq1R0 | sq1R1 | sq1R2 | sq1R3 =>
    simp only [exec] at h
    exact onAudio_keeps h hs ⟨h0, squareOk_squareWrite _ _ _ _, hsaw⟩
  case sqEnable =>
    simp only [exec] at h
    exact onAudio_keeps h hs ⟨squareOk_squareEnable h0 _, squareOk_squareEnable h1 _, hsaw⟩
  case sawR0 | sawR1 | sawR2 =>
    simp only [exec] at h
    exact onAudio_keeps h hs ⟨h0, h1, sawOk_sawWrite hsaw _ _⟩
  case sqDa | sawR3 =>
    simp only [exec] at h
    exact onAudio_keeps h hs hs
  case mmcChrfd0 | mmcChrfe0 | mmcChrfd1 | mmcChrfe1 =>
    exact onMapper_keeps h hs fun _ => audioOk_pushHalf_ite hs
  case ppuLatch p =>
    obtain ⟨-, rfl⟩ := exec_ppuLatch_inv p h
    rw [latchCheck_frame]
    exact hs
  case scanlineStart line =>
    obtain ⟨-, ⟨-, rfl⟩ | ⟨-, rfl⟩⟩ := exec_scanlineStart_inv line h
    · exact hs
    · rw [commit_frame]
      exact hs
  case predict line =>
    obtain ⟨-, rfl⟩ := exec_predict_inv line h
    exact hs
  case reset =>
    obtain ⟨-, rfl⟩ := exec_reset_inv h
    exact audioOk_resetAudio (s := pushView (resetMapper s.clearReport)) (audioOk_resetMapper (s := s.clearReport) hs)
  case renderLine v fineX bgSel leftClip bgEnabled widthOk =>
    obtain ⟨-, rfl⟩ := exec_renderLine_inv v fineX bgSel leftClip bgEnabled widthOk h
    rw [renderLine_frame v fineX bgSel leftClip bgEnabled widthOk s.clearReport]
    exact hs
  case sample =>
    obtain ⟨-, rfl⟩ := exec_sample_inv h
    exact audioOk_sampleChip (s := s.clearReport) hs
  case save =>
    obtain ⟨-, rfl⟩ := exec_save_inv h
    exact hs
  case load =>
    obtain ⟨-, hb⟩ := exec_load_inv h
    obtain ⟨-, u, w, hu, hw, rfl⟩ := loadBlock_some _ _ hb
    have hua : AudioOk u := by
      rw [loadMapper_frame _ _ _ hu]
      exact hs
    have hwa : AudioOk w := audioOk_loadAudio hua hw
    exact hwa
  case init id prg chr mirror audio =>
    obtain ⟨o, m, -, -, ⟨-, rfl⟩ | ⟨r, -, -, rfl⟩⟩ := exec_init_inv id prg chr mirror audio h
    · exact audioOk_resetAll { s.clearReport with cart := _, active := m }
    · exact hs
  case reservedA | reservedB | reservedC | reservedD | reservedE | reservedF =>
    exact absurd h (exec_reserved_not_next _ (by simp [Instr.isReserved]))
  all_goals exact onMapper_keeps h hs fun _ => hs

theorem exec_keeps_inv (hs : Inv s) (h : exec i s = .next t) : Inv t := by
  obtain ⟨hc, hv, hl, hm, ha⟩ := hs
  exact ⟨exec_keeps_cartOk hc h, exec_keeps_viewOk hv hl h, exec_keeps_latchOk hl h, exec_keeps_memoryOk hm h,
    exec_keeps_audioOk ha h⟩

end

/-! ## The invariant through one input -/

section
variable {s t : State}

theorem execOption_keeps_inv {i : Option Instr} (hs : Inv s) (h : execOption i s = .next t) : Inv t := by
  cases i with
  | none => exact Host.Outcome.next.inj h ▸ hs
  | some i => exact exec_keeps_inv hs h

theorem busWrite_keeps_inv {m a : Option Instr} (hs : Inv s) (h : busWrite m a s = .next t) : Inv t := by
  obtain ⟨-, h⟩ := (whenReady_next _ _ _).mp h
  obtain ⟨u, hu, ht⟩ := (andThen_next _ _ _).mp h
  exact execOption_keeps_inv (execOption_keeps_inv (s := s.clearReport) hs hu) ht

theorem execDecoded_keeps_inv {d : Decoded} (hs : Inv s) (h : execDecoded d s = .next t) : Inv t := by
  cases d with
  | one i => exact exec_keeps_inv hs h
  | write m a => exact busWrite_keeps_inv hs h

/-- The position and the report are no part of the invariant, and the PPU writes CIRAM in its canonical form. -/
theorem deliver_keeps_inv {i : Input} (hs : Inv s) (h : deliver i s = .next t) : Inv t := by
  cases i with
  | transaction w =>
    obtain ⟨d, u, hu, rfl⟩ := runWord_next_inv h
    have hinv : Inv u := execDecoded_keeps_inv hs hu
    exact hinv
  | cpuRead a => exact Host.Outcome.next.inj h ▸ hs
  | ciramWrite off v =>
    obtain ⟨hc, hv, hl, ⟨hprg, hchr, hciram⟩, ha⟩ := hs
    rw [← Host.Outcome.next.inj h]
    exact ⟨hc, hv, hl, ⟨hprg, hchr, Memory.wf_write _ _ _ hciram⟩, ha⟩
  | saveStream bytes => exact Host.Outcome.next.inj h ▸ hs

end

/-- Settles O58: an idle step keeps its state, and every other one delivers an input. -/
theorem stepKeepsInvariant : Obligations.StepKeepsInvariant := by
  intro s t hs h
  cases hin : s.inputs with
  | nil =>
    rw [positionAdvances.2 s hin] at h
    exact Host.Outcome.next.inj h ▸ hs
  | cons i rest =>
    simp only [step, hin] at h
    exact deliver_keeps_inv (s := takeInput rest s) hs h

/-- Settles O59: nothing is claimed, the latches and the channels are at their reset columns, and the memories are empty. -/
theorem resetStateSound : Obligations.ResetStateSound :=
  ⟨⟨fun hn => absurd rfl hn, fun hn => absurd rfl hn, latchOk_mmcReset rfl, State.reset_memory_wf,
    squareOk_squareReset _, squareOk_squareReset _, sawOk_sawReset _⟩, rfl, rfl, rfl⟩

end Sys2Proof.Machine
end

section

/-! PROOFS. INIT, RESET and SAVE: what each leaves, and what is refused before INIT (46_lifecycle.md R360 to R368). -/

namespace Sys2Proof.Machine

/-! ## RESET's view (40_bandai.md R141, 41_mmc2_mmc4.md R186, 42_sunsoft.md R221) -/

/-- A page that exists is not wrapped. -/
theorem maskPage_of_lt {n : Nat} (h : PowerOfTwo n) {p : Byte} (hp : p.toNat < n) : maskPage n p = p.toNat := by
  rw [maskPage_eq_mod h, Nat.mod_eq_of_lt hp]

theorem maskPage_zero (n : Nat) : maskPage n 0#8 = 0 := by simp [maskPage]

/-- The view of the reset columns. -/
def resetView (c : Cartridge) (m : Active) : BusView where
  prgSlot := #v[0, if m = .mmc2 then 2 * c.prgPages.toNat - 3 else 1, 2 * c.prgPages.toNat - 2,
    2 * c.prgPages.toNat - 1]
  chrSlot := #v[0, 1, 2, 3, 4, 5, 6, 7]
  ntSrc := ciramTables c.headerMirroring

section
variable {c : Cartridge} (hchr : PowerOfTwo c.chrPages.toNat)
include hchr

theorem bandaiView_reset : bandaiView c (bandaiReset c.headerMirroring) = resetView c .bandai := by
  have hpos := hchr.pos
  have hpage (p : Byte) (hp : p.toNat < 8) : maskPage c.chr1 p = p.toNat :=
    maskPage_of_lt hchr.eight (by omega)
  simp [bandaiView, bandaiReset, resetView, prgLow16, maskPage_zero, mirrorTable_eq, Cartridge.prg8, hpage]

theorem mmcChrSlots_reset (m : MirrorMode) : mmcChrSlots c (mmcReset m) = #v[0, 1, 2, 3, 4, 5, 6, 7] := by
  have hpos := hchr.pos
  have hpage (p : Byte) (hp : p.toNat < 2) : maskPage c.chr4 p = p.toNat :=
    maskPage_of_lt hchr.double (by omega)
  simp [mmcChrSlots, mmcReset, latchedChr, chrHalves, hpage]

theorem mmc2View_reset : mmc2View c (mmcReset c.headerMirroring) = resetView c .mmc2 := by
  simp only [mmc2View, mmcChrSlots_reset hchr]
  simp [mmcReset, resetView, maskPage_zero, mirrorTable_eq, Cartridge.prg8]

theorem mmc4View_reset : mmc4View c (mmcReset c.headerMirroring) = resetView c .mmc4 := by
  simp only [mmc4View, mmcChrSlots_reset hchr]
  simp [mmcReset, resetView, prgLow16, maskPage_zero, mirrorTable_eq, Cartridge.prg8]

theorem sunsoftNts_reset (m : MirrorMode) : sunsoftNts c (sunsoftReset m) = ciramTables m := by
  rw [sunsoftNts_eq c _ hchr, sunsoftTables_of_ciram]
  · cases m <;> rfl
  · cases m <;> rfl

theorem sunsoftView_reset : sunsoftView c (sunsoftReset c.headerMirroring) = resetView c .sunsoft := by
  have hpos := hchr.pos
  have hpage (p : Byte) (hp : p.toNat < 4) : maskPage c.chr2 p = p.toNat :=
    maskPage_of_lt hchr.four (by omega)
  simp only [sunsoftView, sunsoftNts_reset hchr]
  simp [sunsoftReset, resetView, prgLow16, maskPage_zero, chrPair, Cartridge.prg8, hpage]

end

theorem viewOf_resetMapper {s : State} (hn : s.active ≠ .none) (hc : CartOk s) :
    viewOf (resetMapper s) = resetView s.cart s.active := by
  obtain ⟨-, hchr, -, -⟩ := hc hn
  cases ha : s.active <;> simp only [resetMapper, viewOf, ha]
  case none => exact absurd ha hn
  case bandai => exact bandaiView_reset hchr
  case mmc2 => exact mmc2View_reset hchr
  case mmc4 => exact mmc4View_reset hchr
  case sunsoft => exact sunsoftView_reset hchr

/-! ## RESET (R366) -/

/-- The audio module's reset comes last and leaves the registers and the view. -/
theorem resetBlock_registers (s : State) :
    (resetBlock s).bandai = (resetMapper s).bandai ∧ (resetBlock s).mmc = (resetMapper s).mmc ∧
      (resetBlock s).sunsoft = (resetMapper s).sunsoft ∧ (resetBlock s).view = viewOf (resetMapper s) := by
  unfold resetBlock resetAudio
  split <;> exact ⟨rfl, rfl, rfl, rfl⟩

theorem resetMapper_frame (s : State) : resetMapper s = { s with
    bandai := (resetMapper s).bandai, mmc := (resetMapper s).mmc, sunsoft := (resetMapper s).sunsoft } := by
  unfold resetMapper
  split <;> rfl

theorem resetBlock_square {s : State} (ho : s.cart.audioOption = .square) :
    (resetBlock s).sq0 = squareReset s.args ∧ (resetBlock s).sq1 = squareReset s.args ∧ (resetBlock s).da = 0 := by
  rw [resetBlock, resetMapper_frame]
  simp [resetAudio, ho]

theorem resetBlock_saw {s : State} (ho : s.cart.audioOption = .saw) : (resetBlock s).saw = sawReset s.args := by
  rw [resetBlock, resetMapper_frame]
  simp [resetAudio, ho]

/-- Settles O37: the reset columns of the active variant and of the audio module, the view pushed from them, the frame. -/
theorem resetRestoresEverything : Obligations.ResetRestoresEverything := by
  intro s hn hc
  obtain ⟨hbandai, hmmc, hsunsoft, hview⟩ := resetBlock_registers s.clearReport
  rw [viewOf_resetMapper (s := s.clearReport) hn hc] at hview
  refine ⟨resetBlock s.clearReport, ready_of_ne _ _ hn, resetBlock_frame s.clearReport,
    resetBlock_absentKept s.clearReport, congrArg BusView.chrSlot hview, congrArg BusView.ntSrc hview,
    congrArg BusView.prgSlot hview, fun ha => ?bandai, fun ha => ?mmc, fun ha => ?sunsoft, fun ho => ?square,
    fun ho => resetBlock_saw (s := s.clearReport) ho⟩
  case bandai => simp only [hbandai, resetMapper, State.clearReport_active, ha]; rfl
  case mmc => rcases ha with ha | ha <;> simp only [hmmc, resetMapper, State.clearReport_active, ha] <;> rfl
  case sunsoft =>
    simp only [hsunsoft, resetMapper, State.clearReport_active, ha, BitVec.ofNat_toNat]
    rfl
  case square =>
    obtain ⟨h0, h1, hda⟩ := resetBlock_square (s := s.clearReport) ho
    simp only [List.forall_mem_cons]
    exact ⟨hda, h0, h1, fun _ h => nomatch h⟩

/-! ## INIT (R360, R361, R365) -/

section
variable (c : Cartridge) (m : Active) (s : State)

theorem resetMapper_claim : resetMapper (claim c m s) = claim c m s := by
  cases m <;> rfl

theorem pushView_claim : pushView (claim c m s) = claim c m s := by
  cases m <;> rfl

theorem resetAudio_claim : resetAudio (claim c m s) = claim c m s := by
  unfold resetAudio
  split <;> rfl

/-- A claimed block is already at its reset state. -/
theorem resetBlock_claim : resetBlock (claim c m s) = claim c m s := by
  rw [resetBlock, resetMapper_claim, pushView_claim, resetAudio_claim]

end

/-- The claimed view is the one of the reset columns, whatever was there before. -/
theorem claim_view (c : Cartridge) {m : Active} (hm : m ≠ .none) (s s' : State) :
    (claim c m s).view = (claim c m s').view := by
  cases m
  case none => exact absurd rfl hm
  all_goals rfl

theorem audioOf_of_listed {audio : BitVec 2} {o : AudioOption}
    (h : (audio.toNat, o) ∈ ([(0, .none), (1, .square), (2, .saw)] : List (Nat × AudioOption))) :
    audioOf audio = some o := by
  simp only [List.mem_cons, Prod.mk.injEq, List.not_mem_nil, or_false] at h
  obtain ⟨h, rfl⟩ | ⟨h, rfl⟩ | ⟨h, rfl⟩ := h <;> simp [audioOf, h]

theorem exec_init_unknown {id prg chr : Byte} {mirror audio : BitVec 2} {o : AudioOption} (s : State)
    (ho : audioOf audio = some o) (hm : variantOf id = none) :
    exec (.init id prg chr mirror audio) s = .refused (.unsupportedMapper id) := by
  simp only [exec, execInit, ho, hm]

section
variable {id prg chr : Byte} {mirror audio : BitVec 2} {o : AudioOption} {m : Active}
  (s : State) (ho : audioOf audio = some o) (hm : variantOf id = some m)
include ho hm

theorem exec_init_ok (hp : pageCheck m prg chr = .ok) : exec (.init id prg chr mirror audio) s =
    .next (answerInit .ok (claim ⟨id, prg, chr, modeOf mirror, o⟩ m s.clearReport)) := by
  simp only [exec, execInit, ho, hm, hp]

theorem exec_init_failed {r : InitResult} (hp : pageCheck m prg chr = r) (hr : r ≠ .ok) :
    ∃ t, exec (.init id prg chr mirror audio) s = .next t ∧ t.active = .none ∧ t.out = { initResult := some r } := by
  refine ⟨answerInit r { s.clearReport with active := .none }, ?_, rfl, rfl⟩
  cases r
  case ok => exact absurd rfl hr
  all_goals simp only [exec, execInit, ho, hm, hp]

end

/-- INIT's page checks in order (R360). -/
theorem pageCheck_failed (m : Active) (prg chr : Byte) :
    (prg.toNat < minPrg m → pageCheck m prg chr = .insufficient) ∧
    (minPrg m ≤ prg.toNat → ¬PowerOfTwo prg.toNat → pageCheck m prg chr = .unsupported) ∧
    (minPrg m ≤ prg.toNat → PowerOfTwo prg.toNat → chr = 0 → pageCheck m prg chr = .insufficient) ∧
    (minPrg m ≤ prg.toNat → PowerOfTwo prg.toNat → chr ≠ 0 → ¬PowerOfTwo chr.toNat →
      pageCheck m prg chr = .unsupported) := by
  have hpos (h : chr ≠ 0) : ¬chr.toNat < 1 := by bv_omega
  rw [← isPow2_iff, ← isPow2_iff]
  refine ⟨fun h => if_pos h, fun h h2 => ?_, fun h h2 h3 => ?_, fun h h2 h3 h4 => ?_⟩ <;>
    rw [pageCheck, if_neg (by omega)]
  · exact if_pos (by simpa using h2)
  · rw [if_neg (by simp [h2]), h3]
    rfl
  · rw [if_neg (by simp [h2]), if_neg (hpos h3)]
    exact if_pos (by simpa using h4)

theorem variantOf_of_listed : ∀ p ∈ ([(9, .mmc2, 2), (10, .mmc4, 1), (16, .bandai, 1), (68, .sunsoft, 1)] :
    List (Byte × Active × Nat)), variantOf p.1 = some p.2.1 ∧ minPrg p.2.1 = p.2.2 ∧ p.2.1 ≠ .none := by
  decide

theorem variantOf_of_unlisted {id : Byte} (h9 : id ≠ 9) (h10 : id ≠ 10) (h16 : id ≠ 16) (h68 : id ≠ 68) :
    variantOf id = none :=
  (if_neg h16).trans ((if_neg h9).trans ((if_neg h10).trans (if_neg h68)))

theorem variantOf_ne_none {id : Byte} {m : Active} (h : variantOf id = some m) : m ≠ .none := by
  rintro rfl
  unfold variantOf at h
  split_ifs at h <;> cases h

/-- Settles O38: the checks are `pageCheck`'s for each variant and its minimum, and a claim leaves the reset state. -/
theorem initOutcomes : Obligations.InitOutcomes := by
  intro s id prg chr mirror audio o hmem
  have ho := audioOf_of_listed hmem
  refine ⟨fun h9 h10 h16 h68 => exec_init_unknown s ho (variantOf_of_unlisted h9 h10 h16 h68), ?_⟩
  rintro ⟨id', m, minimum⟩ hp rfl
  obtain ⟨hm, hmin, hn⟩ := variantOf_of_listed _ hp
  dsimp only at hm hmin hn ⊢
  subst hmin
  obtain ⟨few, shape, noChr, chrShape⟩ := pageCheck_failed m prg chr
  refine ⟨fun h => exec_init_failed s ho hm (few h) (by decide),
    fun h hprg => exec_init_failed s ho hm (shape h hprg) (by decide),
    fun h hprg hchr => exec_init_failed s ho hm (noChr h hprg hchr) (by decide),
    fun h hprg hchr hshape => exec_init_failed s ho hm (chrShape h hprg hchr hshape) (by decide), fun h hprg hchr => ?_⟩
  refine ⟨_, exec_init_ok s ho hm ((pageCheck_eq_ok_iff m prg chr).mpr ⟨h, hprg, hchr⟩), rfl, rfl, rfl, ?_⟩
  exact (ready_of_ne _ _ hn).trans (congrArg _ (resetBlock_claim _ m s.clearReport))

/-- Settles O39: what a claim leaves is made of INIT's operands and the model arguments. -/
theorem initReplacesEverything : Obligations.InitReplacesEverything := by
  intro s s' t id prg chr mirror audio hargs h hout
  obtain ⟨o, m, ho, hm, ⟨hp, rfl⟩ | ⟨r, -, hr, rfl⟩⟩ := exec_init_inv id prg chr mirror audio h
  · refine ⟨_, exec_init_ok s' ho hm hp, rfl, rfl, rfl, rfl, rfl, ?view, ?sq0, ?sq1, rfl, ?saw, rfl, hargs.symm⟩
    case view => exact claim_view _ (variantOf_ne_none hm) _ _
    case sq0 | sq1 => exact congrArg squareReset hargs.symm
    case saw => exact congrArg sawReset hargs.symm
  · exact absurd (Option.some.inj hout) hr

/-! ## Before INIT (R363) -/

/-- Every kind but INIT's waits for a cartridge or is reserved. -/
theorem exec_of_none {s : State} (hn : s.active = .none) {i : Instr} (hi : i.isInit = false) :
    ∃ r, exec i s = .refused r ∧ (i.isReserved = false → r = .notInitialised) := by
  by_cases hb : i.isBusWrite = true
  · obtain ⟨f, hf⟩ := exec_eq_ready_of_isBusWrite hb
    exact ⟨_, (hf s).trans (whenReady_of_none _ _ hn), fun _ => rfl⟩
  · by_cases hr : i.isReserved = true
    · obtain ⟨r, h⟩ := exec_of_isReserved hr s
      exact ⟨r, h, fun h => absurd (hr.symm.trans h) (by decide)⟩
    · cases i
      case ppuLatch | scanlineStart | predict | reset | renderLine | sample | save | load =>
        exact ⟨_, if_pos hn, fun _ => rfl⟩
      case init => simp [Instr.isInit] at hi
      case reservedA | reservedB | reservedC | reservedD | reservedE | reservedF => simp [Instr.isReserved] at hr
      all_goals simp [Instr.isBusWrite] at hb

/-- A word of another kind than INIT's holds no INIT, and a bus write waits for a cartridge. -/
theorem runWord_of_none {s : State} (hn : s.active = .none) {w : TxWord} (hw : w.toNat / 2 ^ 28 ≠ 9) :
    ∃ r, runWord w s = .refused r := by
  cases hd : decode s.selection w with
  | error e => exact ⟨_, runWord_of_error hd⟩
  | ok d =>
    cases d with
    | one i =>
      have hi : i.isInit = false := by
        rw [Instr.isInit, Instr.kind, (isReading_of_decode hd rfl).1, kindOf]
        refine decide_eq_false fun h => hw ?_
        have h9 : (w.extractLsb' 28 4).toNat = 9 := congrArg BitVec.toNat h
        rw [extractLsb'_toNat_eq] at h9
        omega
      obtain ⟨r, hr, -⟩ := exec_of_none hn hi
      exact ⟨r, runWord_refused hd hr⟩
    | write m a => exact ⟨_, runWord_refused hd (busWrite_of_none hn)⟩

/-- Settles O40: the shell `whenReady` refuses, and a failed INIT leaves active = NONE. -/
theorem refusedBeforeInit : Obligations.RefusedBeforeInit := by
  refine ⟨rfl, fun s t id prg chr mirror audio r h hout hr => ?failed, fun s i hn hi => exec_of_none hn hi,
    fun s w rest hn hin hw => step_transaction hin ▸ runWord_of_none (s := takeInput rest s) hn hw⟩
  case failed =>
    obtain ⟨o, m, -, -, ⟨-, rfl⟩ | ⟨r, -, -, rfl⟩⟩ := exec_init_inv id prg chr mirror audio h
    · exact absurd (Option.some.inj hout).symm hr
    · rfl

/-! ## SAVE (R368) -/

theorem bitByte_eq (b : Bool) : bitByte b = BitVec.ofNat 8 b.toNat := by
  cases b <;> rfl

theorem squareBytes_eq (ch : SquareChannel) : squareBytes ch = squareSaved ch := by
  simp only [squareBytes, squareSaved, bitByte_eq, leBytes_eq, BitVec.ofNat_toNat]

theorem sawBytes_eq (ch : SawChannel) : sawBytes ch = sawSaved ch := by
  simp only [sawBytes, sawSaved, bitByte_eq, leBytes_eq, BitVec.ofNat_toNat]

theorem mapperPayload_eq (s : State) : mapperPayload s = mapperSaved s := by
  cases ha : s.active <;> simp only [mapperPayload, mapperSaved, ha]
  case bandai => simp only [bandaiBytes, bandaiSaved, bitByte_eq, leBytes_eq, BitVec.ofNat_toNat]
  case mmc2 | mmc4 => simp only [mmcBytes, mmcSaved, BitVec.ofNat_toNat]
  case sunsoft => rfl

theorem audioPayload_eq (s : State) : audioPayload s = audioSaved s := by
  cases ho : s.cart.audioOption <;> simp only [audioPayload, audioSaved, ho]
  case square => simp only [squareBytes_eq]
  case saw => exact sawBytes_eq s.saw

/-- Settles O41: the machine's bytes are the ones in arithmetic. -/
theorem saveBytes : Obligations.SaveBytes := by
  intro s hn
  rw [← mapperPayload_eq, ← audioPayload_eq]
  exact ready_of_ne _ _ hn

end Sys2Proof.Machine
end

section

/-! PROOFS. What LOAD leaves, and that it reads back what SAVE wrote (20_memory.md R81, 46_lifecycle.md R368 to R371,
92_eei_decisions.md D45). -/

namespace Sys2Proof.Machine

/-! ## What a LOAD leaves (R369) -/

theorem squareOfBytes_phasesFit {args : ModelArgs} {l : List Byte} {ch : SquareChannel}
    (h : squareOfBytes args l = some ch) : SquarePhasesFit ch := by
  simp only [squareOfBytes, Option.ite_none_right_eq_some, Option.some.injEq] at h
  obtain ⟨-, rfl⟩ := h
  exact ⟨natAt_lt l 12 8, natAt_lt l 20 8, natAt_lt l 28 8, natAt_lt l 36 8⟩

theorem sawOfBytes_wavePhase_lt {args : ModelArgs} {l : List Byte} {ch : SawChannel}
    (h : sawOfBytes args l = some ch) : ch.wavePhase < 2 ^ 64 := by
  simp only [sawOfBytes, Option.ite_none_right_eq_some, Option.some.injEq] at h
  obtain ⟨-, rfl⟩ := h
  exact natAt_lt l 9 8

theorem loadBlock_viewOk {s t : State} (h : loadBlock s = some t) : ViewOk t := by
  obtain ⟨-, u, w, -, -, rfl⟩ := loadBlock_some s t h
  exact viewOk_pushView w

/-- The audio part of a LOAD, from the state before it. -/
theorem loadBlock_audio {s t : State} (h : loadBlock s = some t) : ∃ u w, u.args = s.args ∧ u.cart = s.cart ∧
    loadAudio (s.stream.drop (mapperLen s.active)) u = some w ∧ t.sq0 = w.sq0 ∧ t.sq1 = w.sq1 ∧ t.saw = w.saw := by
  obtain ⟨-, u, w, hu, hw, rfl⟩ := loadBlock_some s t h
  have hargs : u.args = s.args := by rw [loadMapper_frame _ _ _ hu]
  have hcart : u.cart = s.cart := by rw [loadMapper_frame _ _ _ hu]
  exact ⟨u, w, hargs, hcart, hw, rfl, rfl, rfl⟩

theorem loadBlock_square {s t : State} (h : loadBlock s = some t) (ho : s.cart.audioOption = .square) :
    ∃ l l', squareOfBytes s.args l = some t.sq0 ∧ squareOfBytes s.args l' = some t.sq1 := by
  obtain ⟨u, w, hargs, hcart, hw, h0, h1, -⟩ := loadBlock_audio h
  rw [← hcart] at ho
  obtain ⟨c0, c1, hc0, hc1, rfl⟩ := loadAudio_square ho hw
  rw [h0, h1, ← hargs]
  exact ⟨_, _, hc0, hc1⟩

theorem loadBlock_saw {s t : State} (h : loadBlock s = some t) (ho : s.cart.audioOption = .saw) :
    ∃ l, sawOfBytes s.args l = some t.saw := by
  obtain ⟨u, w, hargs, hcart, hw, -, -, hsaw⟩ := loadBlock_audio h
  rw [← hcart] at ho
  obtain ⟨c, hc, rfl⟩ := loadAudio_saw ho hw
  rw [hsaw, ← hargs]
  exact ⟨_, hc⟩

/-- Settles O42: LOAD succeeds exactly on a legal stream, and then each clause is a lemma about `loadBlock`. -/
theorem loadChecksAndEffect : Obligations.LoadChecksAndEffect := by
  refine fun s hn => ⟨exec_load_of_illegal hn, fun hlegal => ?_⟩
  obtain ⟨t, ht, hb⟩ := exec_load_of_legal hn hlegal
  have hframe := loadBlock_frame _ _ hb
  have hactive : t.active = s.active := by rw [hframe]; rfl
  have hout : t.out = {} := by rw [hframe]; rfl
  obtain ⟨hsaved, hstream⟩ := loadBlock_saved hb
  refine ⟨t, ht, hstream, hsaved, loadBlock_viewOk hb (hactive ▸ hn), hout, fun ho => ?squareDecoded,
    fun ho => ?sawDecoded, fun ho => ?squareFits, fun ho => ?sawFits, loadBlock_absentKept s.clearReport t hb, hframe⟩
  case squareDecoded =>
    obtain ⟨l, l', h0, h1⟩ := loadBlock_square hb ho
    exact ⟨squareOfBytes_decoded h0, squareOfBytes_decoded h1⟩
  case sawDecoded =>
    obtain ⟨l, h⟩ := loadBlock_saw hb ho
    exact sawOfBytes_decoded h
  case squareFits =>
    obtain ⟨l, l', h0, h1⟩ := loadBlock_square hb ho
    exact ⟨squareOfBytes_phasesFit h0, squareOfBytes_phasesFit h1⟩
  case sawFits =>
    obtain ⟨l, h⟩ := loadBlock_saw hb ho
    exact sawOfBytes_wavePhase_lt h

/-! ## Bytes read back (R81) -/

theorem exists_vector_eq_two (v : Vector Byte 2) : ∃ a b, v = #v[a, b] :=
  ⟨v[0], v[1], vector_ext_fin fun i => by fin_cases i <;> rfl⟩

theorem exists_vector_eq_three (v : Vector Byte 3) : ∃ a b c, v = #v[a, b, c] :=
  ⟨v[0], v[1], v[2], vector_ext_fin fun i => by fin_cases i <;> rfl⟩

theorem exists_vector_eq_four (v : Vector Byte 4) : ∃ a b c d, v = #v[a, b, c, d] :=
  ⟨v[0], v[1], v[2], v[3], vector_ext_fin fun i => by fin_cases i <;> rfl⟩

theorem exists_vector_eq_eight (v : Vector Byte 8) : ∃ a b c d e f g h, v = #v[a, b, c, d, e, f, g, h] :=
  ⟨v[0], v[1], v[2], v[3], v[4], v[5], v[6], v[7], vector_ext_fin fun i => by fin_cases i <;> rfl⟩

/-- An integer that fits its bytes is read back, wherever they stand. -/
theorem natAt_leBytes {l before after : List Byte} {i k n : Nat} (h : l = before ++ (leBytes k n ++ after))
    (hi : before.length = i) (hn : n < 256 ^ k) : natAt l i k = n := by
  subst hi
  rw [natAt, h, List.drop_left, List.take_left' (leBytes_length k n), fromLe_leBytes k n hn]

theorem bitByte_getLsbD (b : Bool) : (bitByte b).getLsbD 0 = b := by
  cases b <;> rfl

theorem bitByte_le (b : Bool) : (bitByte b).toNat ≤ 1 := by
  cases b <;> decide

theorem zeroExtend_toNat {n : Nat} (hn : n ≤ 8) (x : BitVec n) : (x.zeroExtend 8).toNat = x.toNat :=
  (BitVec.toNat_setWidth 8 x).trans
    (Nat.mod_eq_of_lt (Nat.lt_of_lt_of_le x.isLt (Nat.pow_le_pow_right (by decide) hn)))

theorem extractLsb'_zeroExtend {n : Nat} (hn : n ≤ 8) (x : BitVec n) : (x.zeroExtend 8).extractLsb' 0 n = x := by
  apply BitVec.eq_of_toNat_eq
  rw [extractLsb'_toNat_eq, zeroExtend_toNat hn, pow_zero, Nat.div_one, Nat.mod_eq_of_lt x.isLt]

/-- A 16-bit register is read back. -/
theorem ofNat_natAt_leBytes {l before after : List Byte} {i : Nat} {x : BitVec 16}
    (h : l = before ++ (leBytes 2 x.toNat ++ after)) (hi : before.length = i) : BitVec.ofNat 16 (natAt l i 2) = x := by
  rw [natAt_leBytes h hi x.isLt, BitVec.ofNat_toNat, BitVec.setWidth_eq]

theorem modeByte_eq (m : MirrorMode) : modeOf (low2 ((codeOf m).zeroExtend 8)) = m := by
  cases m <;> rfl

theorem modeByte_le (m : MirrorMode) : ((codeOf m).zeroExtend 8).toNat ≤ 3 := by
  cases m <;> decide

theorem isTrigger_of {b : Byte} (h : b = 0xFD ∨ b = 0xFE) : isTrigger b = true := by
  rcases h with rfl | rfl <;> rfl

/-! ## Each payload read back (R370) -/

theorem bandaiOfBytes_bandaiBytes (r : BandaiRegs) (rest : List Byte) :
    bandaiOfBytes (bandaiBytes r ++ rest) = some r := by
  obtain ⟨chr, prg, mirror, enable, counter, latch⟩ := r
  obtain ⟨a, b, c, d, e, f, g, h, rfl⟩ := exists_vector_eq_eight chr
  refine (if_pos ⟨modeByte_le mirror, bitByte_le enable⟩).trans (congrArg some ?_)
  simp only [BandaiRegs.mk.injEq]
  exact ⟨rfl, rfl, modeByte_eq mirror, bitByte_getLsbD enable,
    ofNat_natAt_leBytes (before := [a, b, c, d, e, f, g, h, prg, (codeOf mirror).zeroExtend 8, bitByte enable]) rfl rfl,
    ofNat_natAt_leBytes (before := [a, b, c, d, e, f, g, h, prg, (codeOf mirror).zeroExtend 8, bitByte enable] ++
      leBytes 2 counter.toNat) rfl rfl⟩

theorem mmcOfBytes_mmcBytes {r : MmcRegs}
    (hl : (r.latch0 = 0xFD ∨ r.latch0 = 0xFE) ∧ (r.latch1 = 0xFD ∨ r.latch1 = 0xFE)) (rest : List Byte) :
    mmcOfBytes (mmcBytes r ++ rest) = some r := by
  obtain ⟨h0, h1⟩ := hl
  have hlegal : (isTrigger r.latch0 && isTrigger r.latch1 &&
      decide (((codeOf r.mirror).zeroExtend 8).toNat ≤ 3)) = true := by
    rw [isTrigger_of h0, isTrigger_of h1, decide_eq_true (modeByte_le r.mirror)]
    rfl
  refine (if_pos hlegal).trans (congrArg some ?_)
  obtain ⟨prg, fd0, fe0, fd1, fe1, mirror, latch0, latch1⟩ := r
  simp only [MmcRegs.mk.injEq]
  exact ⟨rfl, rfl, rfl, rfl, rfl, modeByte_eq mirror, rfl, rfl⟩

theorem sunsoftOfBytes_sunsoftBytes (r : SunsoftRegs) (rest : List Byte) :
    sunsoftOfBytes (sunsoftBytes r ++ rest) = r := by
  obtain ⟨chr, nt, ntctl, prg⟩ := r
  obtain ⟨a, b, c, d, rfl⟩ := exists_vector_eq_four chr
  obtain ⟨e, f, rfl⟩ := exists_vector_eq_two nt
  rfl

/-- The fields of one byte at the head of a square channel's payload. -/
def squareFields (ch : SquareChannel) : List Byte :=
  ch.regs.toList ++ [ch.update.zeroExtend 8, bitByte ch.key, bitByte ch.enabled, ch.length, ch.envVol.zeroExtend 8,
    ch.dutyPos.zeroExtend 8]

/-- The integers of a square channel's payload are read back. -/
theorem natAt_squareBytes {ch : SquareChannel} (hfit : SquarePhasesFit ch) {l rest : List Byte}
    (hl : l = squareBytes ch ++ rest) : BitVec.ofNat 16 (natAt l 10 2) = ch.release ∧ natAt l 12 8 = ch.envPhase ∧
      natAt l 20 8 = ch.lenPhase ∧ natAt l 28 8 = ch.sweepPhase ∧ natAt l 36 8 = ch.wavePhase := by
  obtain ⟨henv, hlen, hsweep, hwave⟩ := hfit
  have hshape : l = squareFields ch ++ leBytes 2 ch.release.toNat ++ leBytes 8 ch.envPhase ++ leBytes 8 ch.lenPhase ++
      leBytes 8 ch.sweepPhase ++ leBytes 8 ch.wavePhase ++ rest := hl
  have hfields : (squareFields ch).length = 10 := by simp [squareFields]
  simp only [List.append_assoc] at hshape
  refine ⟨ofNat_natAt_leBytes hshape hfields, ?env, ?len, ?sweep, ?wave⟩
  case env =>
    rw [← List.append_assoc] at hshape
    exact natAt_leBytes hshape (by simp [hfields]) henv
  case len =>
    iterate 2 rw [← List.append_assoc] at hshape
    exact natAt_leBytes hshape (by simp [hfields]) hlen
  case sweep =>
    iterate 3 rw [← List.append_assoc] at hshape
    exact natAt_leBytes hshape (by simp [hfields]) hsweep
  case wave =>
    iterate 4 rw [← List.append_assoc] at hshape
    exact natAt_leBytes hshape (by simp [hfields]) hwave

theorem squareOfBytes_squareBytes (args : ModelArgs) {ch : SquareChannel} (hfit : SquarePhasesFit ch)
    (rest : List Byte) :
    squareOfBytes args (squareBytes ch ++ rest) = some { ch with d := squareDecode args ch.regs } := by
  obtain ⟨hrelease, henv, hlen, hsweep, hwave⟩ := natAt_squareBytes hfit (rest := rest) rfl
  obtain ⟨regs, update, enabled, key, length, vol, duty, release, env, len, sweep, wave, d⟩ := ch
  obtain ⟨r0, r1, r2, r3, rfl⟩ := exists_vector_eq_four regs
  have hupdate : (update.zeroExtend 8).toNat ≤ 15 := by rw [zeroExtend_toNat (by decide)]; omega
  have hvol : (vol.zeroExtend 8).toNat ≤ 15 := by rw [zeroExtend_toNat (by decide)]; omega
  have hduty : (duty.zeroExtend 8).toNat ≤ 7 := by rw [zeroExtend_toNat (by decide)]; omega
  refine (if_pos ⟨hupdate, bitByte_le key, bitByte_le enabled, hvol, hduty⟩).trans (congrArg some ?_)
  simp only [SquareChannel.mk.injEq]
  exact ⟨rfl, extractLsb'_zeroExtend (by decide) update, bitByte_getLsbD enabled, bitByte_getLsbD key, rfl,
    extractLsb'_zeroExtend (by decide) vol, extractLsb'_zeroExtend (by decide) duty, hrelease, henv, hlen, hsweep,
    hwave, rfl⟩

/-- The fields of one byte at the head of a saw channel's payload. -/
def sawFields (ch : SawChannel) : List Byte :=
  ch.regs.toList ++ [ch.update.zeroExtend 8, bitByte ch.key, ch.stepPos.zeroExtend 8, ch.acc]

theorem sawOfBytes_sawBytes (args : ModelArgs) {ch : SawChannel} (hpos : ch.stepPos.toNat ≤ 13)
    (hfit : ch.wavePhase < 2 ^ 64) (rest : List Byte) :
    sawOfBytes args (sawBytes ch ++ rest) = some { ch with d := sawDecode args ch.regs } := by
  have hrelease : BitVec.ofNat 16 (natAt (sawBytes ch ++ rest) 7 2) = ch.release :=
    ofNat_natAt_leBytes (before := sawFields ch) (after := leBytes 8 ch.wavePhase ++ rest)
      (by simp [sawBytes, sawFields]) (by simp [sawFields])
  have hwave : natAt (sawBytes ch ++ rest) 9 8 = ch.wavePhase :=
    natAt_leBytes (before := sawFields ch ++ leBytes 2 ch.release.toNat) (after := rest)
      (by simp [sawBytes, sawFields]) (by simp [sawFields]) hfit
  obtain ⟨regs, update, key, stepPos, acc, release, wave, d⟩ := ch
  obtain ⟨r0, r1, r2, rfl⟩ := exists_vector_eq_three regs
  have hupdate : (update.zeroExtend 8).toNat ≤ 7 := by rw [zeroExtend_toNat (by decide)]; omega
  have hstep : (stepPos.zeroExtend 8).toNat ≤ 13 := (zeroExtend_toNat (by decide) stepPos).trans_le hpos
  refine (if_pos ⟨hupdate, bitByte_le key, hstep⟩).trans (congrArg some ?_)
  simp only [SawChannel.mk.injEq]
  exact ⟨rfl, extractLsb'_zeroExtend (by decide) update, bitByte_getLsbD key,
    extractLsb'_zeroExtend (by decide) stepPos, rfl, hrelease, hwave, rfl⟩

/-! ## The round trip (R370, D45) -/

theorem mapperPayload_length (s : State) : (mapperPayload s).length = mapperLen s.active := by
  cases ha : s.active <;> simp [mapperPayload, mapperLen, ha, bandaiBytes, mmcBytes, sunsoftBytes]

theorem audioPayload_length (s : State) : (audioPayload s).length = audioLen s.cart.audioOption := by
  cases ho : s.cart.audioOption <;> simp [audioPayload, audioLen, ho, squareBytes, sawBytes]

/-- The mapper registers are read back as they are. -/
theorem loadMapper_mapperPayload {s : State} (hl : LatchOk s) (rest : List Byte) :
    loadMapper (mapperPayload s ++ rest) s = some s := by
  unfold loadMapper mapperPayload
  split
  case h_1 => rfl
  case h_2 => rw [bandaiOfBytes_bandaiBytes]; rfl
  case h_3 | h_4 => rw [mmcOfBytes_mmcBytes hl]; rfl
  case h_5 => rw [sunsoftOfBytes_sunsoftBytes]

/-- A channel's record decoded again is its own, if nothing is pending. -/
theorem squareOk_withDecode {args : ModelArgs} {ch : SquareChannel} (hok : SquareOk args ch) (hu : ch.update = 0) :
    { ch with d := squareDecode args ch.regs } = ch := by
  rw [← hok hu]

theorem sawOk_withDecode {args : ModelArgs} {ch : SawChannel} (hok : SawOk args ch) (hu : ch.update = 0) :
    { ch with d := sawDecode args ch.regs } = ch := by
  rw [← hok.1 hu]

/-- `t` is `s` up to the derived records of channels with a pending write. -/
structure SameBesidePending (s t : State) : Prop where
  frame : t = { s with
    sq0 := { s.sq0 with d := t.sq0.d }, sq1 := { s.sq1 with d := t.sq1.d }, saw := { s.saw with d := t.saw.d } }
  sq0 : s.sq0.update = 0 → t.sq0 = s.sq0
  sq1 : s.sq1.update = 0 → t.sq1 = s.sq1
  saw : s.saw.update = 0 → t.saw = s.saw

theorem loadAudio_audioPayload {s : State} (ha : AudioOk s) (hfit : PhasesFit s) :
    ∃ t, loadAudio (audioPayload s) s = some t ∧ SameBesidePending s t := by
  obtain ⟨h0, h1, hsaw⟩ := ha
  obtain ⟨hfit0, hfit1, hfitSaw⟩ := hfit
  cases ho : s.cart.audioOption <;> simp only [loadAudio, audioPayload, ho]
  case none => exact ⟨s, rfl, rfl, fun _ => rfl, fun _ => rfl, fun _ => rfl⟩
  case square =>
    have hlen (ch : SquareChannel) : (squareBytes ch).length = 44 := by simp [squareBytes]
    have hda : byteAt (squareBytes s.sq0 ++ squareBytes s.sq1 ++ [s.da]) 88 = s.da := by
      simp [byteAt, hlen]
    rw [hda, List.append_assoc, squareOfBytes_squareBytes _ hfit0, List.drop_left' (hlen _),
      squareOfBytes_squareBytes _ hfit1]
    exact ⟨_, rfl, rfl, squareOk_withDecode h0, squareOk_withDecode h1, fun _ => rfl⟩
  case saw =>
    have hread := sawOfBytes_sawBytes s.args hsaw.2 hfitSaw []
    rw [List.append_nil] at hread
    rw [hread]
    exact ⟨_, rfl, rfl, fun _ => rfl, fun _ => rfl, sawOk_withDecode hsaw⟩

/-- A stream that is exactly the state's payload is read back into the same state. -/
theorem loadBlock_savePayload {s : State} (hl : LatchOk s) (ha : AudioOk s) (hfit : PhasesFit s)
    (hstream : s.stream = savePayload s) :
    ∃ u, loadBlock s = some { u with view := viewOf u, stream := [] } ∧ SameBesidePending s u := by
  obtain ⟨u, hu, hsame⟩ := loadAudio_audioPayload ha hfit
  have hlength : s.stream.length = payloadLen s := by
    rw [hstream, savePayload, List.length_append, mapperPayload_length, audioPayload_length, payloadLen]
  have hmapper : loadMapper s.stream s = some s := hstream ▸ loadMapper_mapperPayload hl (audioPayload s)
  have haudio : s.stream.drop (mapperLen s.active) = audioPayload s := by
    rw [hstream, savePayload, List.drop_left' (mapperPayload_length s)]
  have hrest : s.stream.drop (payloadLen s) = [] := List.drop_eq_nil_of_le hlength.le
  refine ⟨u, ?_, hsame⟩
  rw [loadBlock, if_neg hlength.not_lt, hmapper]
  simp only [haudio, hu, hrest]

theorem exec_load_of_some {s t : State} (hn : s.active ≠ .none) (h : loadBlock s.clearReport = some t) :
    exec .load s = .next t := by
  simp only [exec, execLoad, whenReady_of_ne _ _ hn, h]

/-- Settles O43: LOAD reads back the payload that SAVE reported, and the view pushed again is the one that was there. -/
theorem saveLoadRoundTrip : Obligations.SaveLoadRoundTrip := by
  intro s hn hv hl ha hfit
  obtain ⟨u, hload, ⟨hframe, h0, h1, hsaw⟩⟩ :=
    loadBlock_savePayload (s := { s.clearReport with stream := savePayload s }) hl ha hfit rfl
  have hview : viewOf u = s.view := by
    rw [hframe, hv hn]
    rfl
  refine ⟨saveBlock s.clearReport, _, ready_of_ne _ _ hn, exec_load_of_some hn hload, ?_, h0, h1, hsaw⟩
  rw [hview]
  exact congrArg (fun t : State => { t with view := s.view, stream := [] }) hframe

end Sys2Proof.Machine
end
